-- ==== Sys2Proof/Word.lean ====
section
/-! DEFINITION. The two word types the manual speaks of: bytes of frames (R2) and 32-bit web positions that wrap
(R81 and section 5.2 of 00_scope.md).  Counts, temperatures, speeds and times are plain numbers. -/

namespace Sys2Proof

/-- One byte of a request or response frame (R2). -/
abbrev Byte := BitVec 8

/-- A web position: 32 bits, wrapping (R81). -/
abbrev Pos := BitVec 32

end Sys2Proof
end

