-- ==== Sys2Proof/Config.lean ====
section
/-! DEFINITION. What the manual leaves open, as values nothing can evaluate (no body).  Each is applied to the plain
counter `State.free`, which the model advances every time it reads one.  See notes/assumptions/2.md, 3.md and 4.md. -/

namespace Sys2Proof.Config

/-- The converter result a zone's probe gives when its sample timer runs out by itself and no PROBE_SAMPLE command
brought one (R110 takes it from the analogue input, which is outside the part). -/
opaque converterResult : Nat → Nat

/-- Which of several timers that have run out in the same millisecond is taken first: the manual gives both orders of
every such pair and no rule for the choice (R18, R67, R69, R114, R139, R145). -/
opaque dueChoice : Nat → Nat

/-- Bytes 7..10 of the SPLICE view while the roll status is unknown: the table gives no value for that case. -/
opaque remainingWhenUnknown : Nat → Pos

/-- Bytes 11..14 of the SPLICE view while the roll status is unknown: the table gives no value for that case. -/
opaque deadlineWhenUnknown : Nat → Pos

end Sys2Proof.Config
end

