-- ==== Sys2Proof/Syntax.lean ====
section
/-! DEFINITION. The commands of the part: one constructor per row of spec/opcode_table.json, with what the sender of
the command supplies.  Requests carry the payload as it was shifted in, so that wrong lengths, foreign ports and values
out of range are commands like any other (R8). -/

namespace Sys2Proof

/-- The three station ports and their numbers (R1). -/
inductive Port where
  | line | pattern | roll
  deriving DecidableEq, Repr

/-- The four filtered switch inputs (R83). -/
inductive Switch where
  | bladeHome | hoodUp | hoodDown | jointDetector
  deriving DecidableEq, Repr

/-- One clocked transaction that carries a request (R4, R5): the port, the payload the length byte counts, and the whole
bytes clocked after it, which belong to no field.  The kind byte comes from the row, the length byte is the payload's
length.  Rows that share one request kind (the views of STATUS_READ, the modes of LINE_STOP, the forms of ZONE_SET,
MONITOR_SET and CUT_REQUEST) are told apart by their payload, which is given in full. -/
structure Frame where
  port : Port
  payload : List Byte
  extra : List Byte
  deriving DecidableEq, Repr

/-- The commands.  `a b` of an encoder row are the new levels of the A and B inputs (R81).  `high` is the new level of
a pin, before its polarity setting is applied (R83). -/
inductive Instr where
  /-- DEVICE_RESET (R22). Power-on or reset pin brings every block to its device-reset values and releases every output. -/
  | deviceReset
  /-- EMPTY_TRANSACTION (R3). Chip-select release with no clock leaves the pending response in place and answers nothing. -/
  | emptyTransaction (p : Port)
  /-- INCOMPLETE_FRAME (R10). A clocked transaction whose frame is incomplete is discarded, counted as bad and answered BAD_LENGTH. -/
  | incompleteFrame (p : Port) (bytes : List Byte)
  /-- UNKNOWN_KIND_FRAME (R8). A complete frame whose kind byte names no request is counted, refreshes presence and is answered BAD_KIND. -/
  | unknownKindFrame (kind : Byte) (f : Frame)
  /-- NOP (R12). A NOP is counted, refreshes the presence timer and is answered OK. -/
  | nop (f : Frame)
  /-- LINE_VIEW (R188). STATUS_READ of the LINE view returns the Supervisor's state. -/
  | lineView (f : Frame)
  /-- ZONE_VIEW (R123). STATUS_READ of the ZONE view returns the named zone's state. -/
  | zoneView (f : Frame)
  /-- FORMER_VIEW (R80). STATUS_READ of the FORMER view returns the former's state. -/
  | formerView (f : Frame)
  /-- QUEUE_VIEW (R54). STATUS_READ of the QUEUE view returns the run queue and the open load context. -/
  | queueView (f : Frame)
  /-- PANEL_VIEW (R101). STATUS_READ of the PANEL view returns the named panel record, or NOT_FOUND. -/
  | panelView (f : Frame)
  /-- MAP_VIEW (R101). STATUS_READ of the MAP view returns the positions, counts, filtered levels and oldest marks. -/
  | mapView (f : Frame)
  /-- SPLICE_VIEW (R174). STATUS_READ of the SPLICE view returns the planner and cut scheduler state. -/
  | spliceView (f : Frame)
  /-- PORT_VIEW (R14). STATUS_READ of the PORT view returns the presence and frame counts of all three ports. -/
  | portView (f : Frame)
  /-- EVENT_TAKE (R30). Takes and clears the highest-ranked pending event kind on the asking port, or answers EMPTY. -/
  | eventTake (f : Frame)
  /-- ROUTE_SET (R32). Sets the asking port's level for one event kind, discarding a pending record when the level becomes 0. -/
  | routeSet (f : Frame)
  /-- FLOOR_SET (R33). Sets the asking port's attention floor and re-evaluates its attention line. -/
  | floorSet (f : Frame)
  /-- PRESENCE_SET (R15). Sets the asking port's presence timeout and restarts or stops its presence timer. -/
  | presenceSet (f : Frame)
  /-- LINE_START (R178). Starts a stopped line into WARMING after its checks and sets the tunnel recipe for the run. -/
  | lineStart (f : Frame)
  /-- LINE_STOP_IMMEDIATE (R181). A LINE_STOP of mode IMMEDIATE takes the line to STOPPING. -/
  | lineStopImmediate (f : Frame)
  /-- LINE_STOP_END_OF_PANEL (R181). A LINE_STOP of mode END_OF_PANEL records a pending stop, or stops at once when no work is in formation. -/
  | lineStopEndOfPanel (f : Frame)
  /-- LINE_RESET (R187). Clears the production state of every block in STOPPED or TRIPPED and raises LINE_RESET_DONE. -/
  | lineReset (f : Frame)
  /-- SPEED_SET (R176). Sets v_req, clamped to v_max. -/
  | speedSet (f : Frame)
  /-- RECIPE_SET (R125). Writes or invalidates one recipe entry unless it is in use. -/
  | recipeSet (f : Frame)
  /-- ZONE_SET (R104). Replaces one zone's settings and brings its duties under any lowered cap. -/
  | zoneSet (f : Frame)
  /-- ZONE_DISABLE (R105). Enable byte 0 of ZONE_SET takes the zone to OFF, closing valve and vent. -/
  | zoneDisable (f : Frame)
  /-- ZONE_ARM (R106). Arm byte 1 of ZONE_SET arms soft start on an OFF zone and is ignored otherwise. -/
  | zoneArm (f : Frame)
  /-- ZONE_ENABLE (R105). Enable byte 1 of ZONE_SET takes an OFF zone to SOFT if armed, else REGULATING. -/
  | zoneEnable (f : Frame)
  /-- MONITOR_SET_ZONE (R138). The zone form of MONITOR_SET replaces one zone monitor's mode, limit, blank and deglitch settings. -/
  | monitorSetZone (f : Frame)
  /-- MONITOR_SET_LINE (R138). The line form of MONITOR_SET sets the probe interval and the web-break settings. -/
  | monitorSetLine (f : Frame)
  /-- FAULT_CLEAR (R149). Clears zone latches, releases held zones and takes a tripped line to STOPPED unless the emergency stop is active. -/
  | faultClear (f : Frame)
  /-- FORMER_SET (R58). Replaces the former's rate, timing and scale settings under the geometry condition. -/
  | formerSet (f : Frame)
  /-- TUNNEL_SET (R126). Replaces the tunnel geometry, empties the cells and resets the next shift position. -/
  | tunnelSet (f : Frame)
  /-- MOTION_SET (R176). Replaces v_max, accel, hood timeout and hood delay. -/
  | motionSet (f : Frame)
  /-- INPUT_SET (R84). Replaces the switch filter times, polarities and encoder directions. -/
  | inputSet (f : Frame)
  /-- ROLL_GEOMETRY_SET (R152). Replaces the roll and knife geometry settings under the geometry condition. -/
  | rollGeometrySet (f : Frame)
  /-- PATTERN_BEGIN (R38). Opens the load context on a slot, discarding its previous contents. -/
  | patternBegin (f : Frame)
  /-- PATTERN_STEPS (R39). Appends step records to the slot in the load context. -/
  | patternSteps (f : Frame)
  /-- PATTERN_END (R40). Checks the loaded pattern and makes the slot VALID, or reports the first bad index. -/
  | patternEnd (f : Frame)
  /-- PATTERN_DELETE (R41). Empties an unreferenced VALID or LOADING slot. -/
  | patternDelete (f : Frame)
  /-- ORDER_QUEUE (R45). Adds an order at the tail of the run queue with a fresh id. -/
  | orderQueue (f : Frame)
  /-- ORDER_CANCEL (R46). Removes a queued order, sets cancel-pending on the active one, or retires it at once. -/
  | orderCancel (f : Frame)
  /-- REPORT_TAKE (R97). Returns and removes the oldest report and queues one waiting report. -/
  | reportTake (f : Frame)
  /-- QUEUE_LOW_SET (R52). Sets the run queue low mark. -/
  | queueLowSet (f : Frame)
  /-- ROLL_STATUS (R153). Records the remaining roll length at the present p_in and re-runs the splice search. -/
  | rollStatus (f : Frame)
  /-- SPLICE_ARM (R157). Arms a planned splice and makes the first search. -/
  | spliceArm (f : Frame)
  /-- SPLICE_FORCE (R161). Forces a splice at p_in + A and enters APPROACH. -/
  | spliceForce (f : Frame)
  /-- SPLICE_CANCEL (R166). Withdraws an unfired splice, returning the planner to IDLE. -/
  | spliceCancel (f : Frame)
  /-- CUT_REQUEST_NEXT_END (R169). Puts the cut scheduler in WAITING for the oldest panel end and works out its cut point. -/
  | cutRequestNextEnd (f : Frame)
  /-- CUT_REQUEST_FORCE (R171). Fires the knife at once and flags the panel cut through. -/
  | cutRequestForce (f : Frame)
  /-- CUT_CANCEL (R172). Returns a waiting cut scheduler to IDLE. -/
  | cutCancel (f : Frame)
  /-- PRESENCE_EXPIRY (R18). A port's presence timer expires, the port is lost and MASTER_LOST is raised on the other ports. -/
  | presenceExpiry (p : Port)
  /-- INFEED_COUNT (R81). One infeed encoder count moves p_in and every comparison against it. -/
  | infeedCount (a b : Bool)
  /-- OUTFEED_COUNT (R81). One outfeed encoder count moves p_out and every comparison against it. -/
  | outfeedCount (a b : Bool)
  /-- SWITCH_PIN_CHANGE (R83). A switch pin change starts, stops or restarts its chatter filter timer, or is an edge at once with filter time 0. -/
  | switchPinChange (sw : Switch) (high : Bool)
  /-- FILTER_EXPIRY (R83). A switch filter timer expires and the filtered level takes an edge. -/
  | filterExpiry (sw : Switch)
  /-- ESTOP_CHANGE (R148). The emergency-stop level changes and, on becoming active, passes ESTOP to the Supervisor. -/
  | estopChange (high : Bool)
  /-- FEED_TIMEOUT (R67). The phase timer expires in FEED and trips the line with FEED_TIMEOUT. -/
  | feedTimeout
  /-- TUCK_END (R68). The tuck time expires and the former enters PRESS. -/
  | tuckEnd
  /-- PRESS_END (R68). The press time expires and the former enters RETRACT. -/
  | pressEnd
  /-- BLADE_JAM (R69). The retract timeout expires before blade home and trips the line with BLADE_JAM. -/
  | bladeJam
  /-- PROBE_SAMPLE (R110). A zone's 100 ms probe sample takes a converter result into the zone or the probe check. -/
  | probeSample (z : Fin 4) (result : Nat)
  /-- REGULATION_PERIOD (R112). A zone's 1 s regulation period counts down blanking, regulates, advances purge and settle counts. -/
  | regulationPeriod (z : Fin 4)
  /-- VALVE_WINDOW_START (R114). A zone's valve window starts, takes the computed duty and opens the valve if above 0. -/
  | valveWindowStart (z : Fin 4)
  /-- VALVE_CLOSE (R114). Window-duty milliseconds of the valve window have elapsed and the valve closes. -/
  | valveClose (z : Fin 4)
  /-- DOSE_SAMPLE (R131). The 100 ms dose sample adds dose and peak to every occupied cell under a non-raised hood. -/
  | doseSample
  /-- SPEED_UPDATE (R185). The 100 ms speed update recomputes v_plan_run, v_heat, v_plan and the speed reference. -/
  | speedUpdate
  /-- PROBE_CHECK_TIMER (R144). The probe-check timer advances the interval count and begins a probe test when it is reached. -/
  | probeCheckTimer
  /-- BREAK_TIMER_EXPIRY (R147). The web-break timer expires and passes WEB_BREAK to the Supervisor. -/
  | breakTimerExpiry
  /-- HOOD_TIMER_EXPIRY (R177). The hood timer expires with the hood still travelling and the Supervisor takes HOOD_FAULT. -/
  | hoodTimerExpiry
  /-- HOOD_DELAY_EXPIRY (R180). The hood delay expires in HOLDING or STOPPING and the hood is commanded up. -/
  | hoodDelayExpiry
  /-- SPLICE_PULSE_END (R162). The splice pulse timer expires and the splice fire output becomes inactive. -/
  | splicePulseEnd
  /-- CUT_PULSE_END (R170). The cut pulse timer expires, the cut fire output becomes inactive and the scheduler returns to IDLE. -/
  | cutPulseEnd
  deriving DecidableEq, Repr

end Sys2Proof
end

