-- ==== Sys2Proof/Decode.lean ====
section
/-! DEFINITION. Reading a request frame (sections 1.3 to 1.5 of 01_station_ports_and_requests.md), and the decoder of
table words: no row of spec/opcode_table.json gives bits, so no word spells a command. -/

namespace Sys2Proof

/-- The 33 kind bytes that name a request (the table of section 1.5). -/
def requestKinds : List Byte :=
  [0x01, 0x02, 0x03, 0x04, 0x05, 0x06,
   0x10, 0x11, 0x12, 0x13, 0x14, 0x15, 0x16, 0x17, 0x18, 0x19, 0x1A, 0x1B, 0x1C,
   0x20, 0x21, 0x22, 0x23, 0x24, 0x25, 0x26, 0x27,
   0x30, 0x31, 0x32, 0x33, 0x34, 0x35]

/-- The whole bytes of a transaction that carries a request of this kind (R5): kind, length, payload, and what the
master clocks after it. -/
def Frame.bytes (kind : Byte) (f : Frame) : List Byte :=
  kind :: BitVec.ofNat 8 f.payload.length :: (f.payload ++ f.extra)

/-- The completeness step of R8: kind and payload of a complete receive frame, nothing of an incomplete one. -/
def parseFrame : List Byte → Option (Byte × List Byte)
  | k :: n :: rest =>
    if n.toNat ≤ 60 ∧ n.toNat ≤ rest.length then some (k, rest.take n.toNat) else none
  | _ => none

/-- The receive frame keeps the first 63 bytes of a transaction (R2). -/
def keptBytes (bytes : List Byte) : List Byte := bytes.take 63

/-- The command a word of the opcode table spells: no row gives bits, so none (log 29). -/
def decodeTableWord (_nbits _w : Nat) : Option Instr := none

end Sys2Proof
end

