-- ==== Sys2Proof/Machine/State.lean ====
section
/-! DEFINITION. The state of the part, block by block (section 3 of 00_scope.md), as plain data, with its values after a
device reset.  Times left are in ms; `none` is a stopped timer. -/

namespace Sys2Proof.Machine

/-! ### Fixed families -/

/-- One of each per station port. -/
structure Three (α : Type) where
  line : α
  pattern : α
  roll : α
  deriving DecidableEq, Repr

/-- One of each per zone (or per recipe index) 0..3. -/
structure Four (α : Type) where
  z0 : α
  z1 : α
  z2 : α
  z3 : α
  deriving DecidableEq, Repr

def Three.get {α : Type} (t : Three α) : Port → α
  | .line => t.line
  | .pattern => t.pattern
  | .roll => t.roll

def Three.set {α : Type} (t : Three α) (p : Port) (x : α) : Three α :=
  match p with
  | .line => { t with line := x }
  | .pattern => { t with pattern := x }
  | .roll => { t with roll := x }

def Three.map {α β : Type} (f : α → β) (t : Three α) : Three β := ⟨f t.line, f t.pattern, f t.roll⟩

def Four.get {α : Type} (q : Four α) : Fin 4 → α
  | 0 => q.z0
  | 1 => q.z1
  | 2 => q.z2
  | 3 => q.z3

def Four.set {α : Type} (q : Four α) (i : Fin 4) (x : α) : Four α :=
  match i with
  | 0 => { q with z0 := x }
  | 1 => { q with z1 := x }
  | 2 => { q with z2 := x }
  | 3 => { q with z3 := x }

def Four.map {α β : Type} (f : α → β) (q : Four α) : Four β := ⟨f q.z0, f q.z1, f q.z2, f q.z3⟩

/-! ### Pins -/

/-- The levels at the input pins, before polarity (R81, R83, R148); true is high. -/
structure Pins where
  bladeHome : Bool
  hoodUp : Bool
  hoodDown : Bool
  jointDetector : Bool
  estop : Bool
  infeedA : Bool
  infeedB : Bool
  outfeedA : Bool
  outfeedB : Bool
  deriving DecidableEq, Repr

/-! ### Station ports -/

/-- The fourteen status codes (R7). -/
inductive Status where
  | ok | accepted | clamped | empty
  | badKind | badLength | notPermitted | badValue | wrongState | busy | full | inUse | notFound | tooLate
  deriving DecidableEq, Repr

/-- A response frame (R6); the length byte is the payload's length. -/
structure Response where
  kind : Byte
  status : Status
  payload : List Byte
  deriving DecidableEq, Repr

/-- What a port holds (R1). -/
structure PortState where
  rxFrame : List Byte
  response : Response
  timeout : Nat
  timer : Option Nat
  lost : Bool
  frameCount : BitVec 16
  badCount : Nat
  dataOut : List Byte
  deriving DecidableEq, Repr

/-! ### Event Router -/

/-- The twenty event kinds (R23). -/
inductive EventKind where
  | trip | lineState | zoneFault | probeOpen | zonePurge | hold | strokeLate | masterLost | spliceScheduled | spliceDone
  | spliceFailed | rollLow | cutDone | orderDone | runQueueLow | runQueueEmpty | reportReady | reportQueueFull
  | lineResetDone | zonesSettled
  deriving DecidableEq, Repr

/-- One event record (R26).  The detail is eight bytes, those beyond the kind's own are 0. -/
structure EventRecord where
  level : Nat
  flag : Bool
  count : Nat
  detail : List Byte
  deriving DecidableEq, Repr

/-- One port's router state (R26); records are in kind order 0..19. -/
structure RouterPort where
  floor : Nat
  records : List EventRecord
  deriving DecidableEq, Repr

/-! ### Pattern Store and Run Queue -/

/-- A step record, every field as received (R36). -/
structure StepRec where
  kind : Nat
  width : Nat
  depth : Nat
  rep : Nat
  press : Nat
  grade : Int
  deriving DecidableEq, Repr

inductive SlotState where
  | empty | loading | valid
  deriving DecidableEq, Repr

/-- A pattern slot (R35); the steps received are the length of the list. -/
structure Slot where
  state : SlotState
  lead : Nat
  tail : Nat
  stepCount : Nat
  steps : List StepRec
  refs : Nat
  deriving DecidableEq, Repr

/-- Sixteen slots and the load context (R35, R42). -/
structure Store where
  slots : List Slot
  load : Option (Fin 16)
  deriving DecidableEq, Repr

/-- An order record (R43). -/
structure Order where
  id : Nat
  pattern : Fin 16
  recipe : Fin 4
  count : Nat
  done : Nat
  cancel : Bool
  frozen : Bool
  deriving DecidableEq, Repr

/-- The run queue (R43): `active` says that the order at the head is the active order. -/
structure RunQueue where
  orders : List Order
  active : Bool
  nextId : Nat
  low : Nat
  deriving DecidableEq, Repr

/-! ### Pleat Former -/

/-- The eleven states of R56, in the order of the FORMER view. -/
inductive FormerState where
  | idle | lead | wait | feed | tuck | press | retract | flat | tail | bridge | held
  deriving DecidableEq, Repr

inductive HoldReason where
  | none | stoppedMid | starved | trackFull
  deriving DecidableEq, Repr

/-- FORMER_SET's settings (R58). -/
structure FormerSettings where
  f : Nat
  tuck : Nat
  retractAllow : Nat
  retractTimeout : Nat
  inNum : Nat
  inDen : Nat
  outNum : Nat
  outDen : Nat
  deriving DecidableEq, Repr

/-- The former's state (R57) and the blade side output (R56); reachedInStop keeps a trigger reached while the former is HELD
as reached (R74; log 49). -/
structure Former where
  state : FormerState
  resume : Option FormerState
  hold : HoldReason
  panel : Option (BitVec 16)
  step : Option Nat
  rep : Nat
  depth : Nat
  target : Pos
  trigger : Option Pos
  late : Bool
  reachedInStop : Bool
  cIn : Nat
  cOut : Nat
  timer : Option Nat
  bridgeTarget : Option (Fin 4)
  retractAfterTrip : Bool
  bladeSide : Bool
  set : FormerSettings
  deriving DecidableEq, Repr

/-! ### Web Tracker -/

/-- One chatter filter (R83): the filtered level (true is active) and the stability timer. -/
structure Filter where
  level : Bool
  timer : Option Nat
  deriving DecidableEq, Repr

/-- INPUT_SET's settings (R84).  A polarity flag that is set makes the input active when its pin is high. -/
structure InputSettings where
  bladeHomeTime : Nat
  hoodUpTime : Nat
  hoodDownTime : Nat
  jointDetectorTime : Nat
  bladeHomePol : Bool
  hoodUpPol : Bool
  hoodDownPol : Bool
  jointDetectorPol : Bool
  estopPol : Bool
  infeedReversed : Bool
  outfeedReversed : Bool
  deriving DecidableEq, Repr

/-- An entry of the joint list (R86). -/
structure Joint where
  x : Pos
  unconfirmed : Bool
  entering : Bool
  deriving DecidableEq, Repr

inductive MarkKind where
  | panelStart | panelEnd | joint | bridgeStart | bridgeEnd
  deriving DecidableEq, Repr

/-- A mark of the web map (R90). -/
structure Mark where
  kind : MarkKind
  pos : Pos
  panel : Option (BitVec 16)
  deriving DecidableEq, Repr

/-- Verdicts in rank order (R133). -/
inductive Verdict where
  | none | good | under | over | unverified | scorch
  deriving DecidableEq, Repr

inductive PanelState where
  | forming | travelling | waitingReport | reported
  deriving DecidableEq, Repr

/-- A panel record, and a report, its copy (R93, R95). -/
structure PanelRec where
  number : BitVec 16
  orderId : Nat
  pattern : Fin 16
  recipe : Fin 4
  pInStart : Pos
  pOutStart : Pos
  pInEnd : Option Pos
  pOutEnd : Option Pos
  formed : Nat
  clamped : Nat
  lateStrokes : Nat
  joint : Bool
  jointUnconfirmed : Bool
  aborted : Bool
  cutThrough : Bool
  judged : Nat
  doseMin : Nat
  doseMax : Nat
  peak : Nat
  verdict : Verdict
  state : PanelState
  deriving DecidableEq, Repr

/-- The Web Tracker (R81 to R98). -/
structure Tracker where
  pIn : Pos
  pOut : Pos
  high : Pos
  bladeHome : Filter
  hoodUp : Filter
  hoodDown : Filter
  jointDetector : Filter
  set : InputSettings
  joints : List Joint
  droppedCaptures : Nat
  droppedMarks : Nat
  map : List Mark
  table : List PanelRec
  nextPanel : BitVec 16
  reports : List PanelRec
  begun : BitVec 32
  taken : BitVec 32
  deriving DecidableEq, Repr

/-! ### Steam zones -/

inductive ZoneState where
  | off | soft | regulating | purge | tripped | probeFault
  deriving DecidableEq, Repr

/-- A zone (R103), its valve output (R114) and its three timers (R110, R112, R114). -/
structure Zone where
  state : ZoneState
  armed : Bool
  target : Nat
  measured : Nat
  held : Bool
  duty : Nat
  windowDuty : Nat
  blank : Nat
  soft : Nat
  hi : Nat
  purge : Nat
  settle : Nat
  gain : Nat
  dutyMax : Nat
  softDuty : Nat
  softTime : Nat
  purgeDelay : Nat
  purgeTime : Nat
  valve : Bool
  probeTimer : Nat
  regTimer : Nat
  windowTimer : Nat
  deriving DecidableEq, Repr

/-! ### Dose Tracker -/

/-- A recipe entry (R124). -/
structure Recipe where
  valid : Bool
  tBase : Nat
  inc : Four Nat
  vNom : Nat
  dMin : Nat
  dMax : Nat
  tScorch : Nat
  tStandby : Nat
  band : Nat
  settle : Nat
  deriving DecidableEq, Repr

/-- TUNNEL_SET's settings (R126). -/
structure TunnelSettings where
  n : Nat
  pitch : Nat
  lTe : Nat
  b1 : Nat
  b2 : Nat
  b3 : Nat
  deriving DecidableEq, Repr

/-- An occupied cell (R129). -/
structure Cell where
  start : Pos
  dose : Nat
  peak : Nat
  unverified : Bool
  deriving DecidableEq, Repr

/-- The Dose Tracker (R124 to R129). -/
structure Dose where
  recipes : Four Recipe
  tunnel : TunnelSettings
  tunnelRecipe : Option (Fin 4)
  pendingRecipe : Option (Fin 4)
  cells : List (Option Cell)
  nextShift : Pos
  sampleTimer : Nat
  deriving DecidableEq, Repr

/-! ### Monitor Unit -/

inductive MonitorMode where
  | off | warn | retry | latch | target
  deriving DecidableEq, Repr

inductive TripHold where
  | none | retry | latch | target
  deriving DecidableEq, Repr

/-- One zone's over-temperature monitor (R137). -/
structure ZoneMonitor where
  mode : MonitorMode
  tLimit : Nat
  blankSet : Nat
  deglitchSet : Nat
  blank : Nat
  deglitch : Nat
  acted : Bool
  warn : Bool
  retry : Bool
  hold : TripHold
  targetChanged : Bool
  probeFlagged : Bool
  deriving DecidableEq, Repr

/-- The Monitor Unit (R137, R144 to R148). -/
structure Monitor where
  zones : Four ZoneMonitor
  interval : Nat
  intervalCount : Nat
  position : Fin 4
  test : Option (Fin 4)
  testPeriods : Nat
  testLatest : Option Nat
  vBreakMin : Nat
  breakTime : Nat
  breakTimer : Option Nat
  estop : Bool
  checkTimer : Nat
  deriving DecidableEq, Repr

/-! ### Roll Change Unit -/

/-- ROLL_GEOMETRY_SET's settings (R152). -/
structure RollGeometry where
  lDf : Nat
  lSf : Nat
  j : Nat
  c : Nat
  a : Nat
  wDet : Nat
  tol : Nat
  reserve : Nat
  low : Nat
  lK : Nat
  cutOffset : Nat
  vSplice : Nat
  splicePulse : Nat
  cutPulse : Nat
  deriving DecidableEq, Repr

/-- A known roll status (R153) and whether ROLL_LOW was raised for it (R154). -/
structure RollStatus where
  pStatus : Pos
  remaining : Nat
  lowRaised : Bool
  deriving DecidableEq, Repr

inductive PlannerState where
  | idle | planning | scheduled | approach | fired
  deriving DecidableEq, Repr

inductive SearchOutcome where
  | noneMade | candidate | noCandidate | noFreeMarks
  deriving DecidableEq, Repr

/-- A planned stretch [S, E), or open from S (R156). -/
structure Stretch where
  s : Pos
  e : Option Pos
  deriving DecidableEq, Repr

/-- The splice planner (R153, R156); the splice fire output is active while `pulse` runs. -/
structure Planner where
  status : Option RollStatus
  state : PlannerState
  forced : Bool
  pFire : Option Pos
  stretch : Option Stretch
  freeze : Option Nat
  outcome : SearchOutcome
  expected : Option Pos
  jointDue : Option Pos
  firedSinceArm : Bool
  pulse : Option Nat
  deriving DecidableEq, Repr

inductive CutState where
  | idle | waiting | fired
  deriving DecidableEq, Repr

/-- The PANEL_END mark a cut waits for (R168). -/
structure CutTarget where
  pos : Pos
  panel : BitVec 16
  deriving DecidableEq, Repr

/-- The cut scheduler (R168); the cut fire output is active while `pulse` runs. -/
structure Cut where
  state : CutState
  target : Option CutTarget
  midpoint : Bool
  point : Option Pos
  fired : Bool
  pulse : Option Nat
  deriving DecidableEq, Repr

structure Roll where
  geo : RollGeometry
  planner : Planner
  cut : Cut
  deriving DecidableEq, Repr

/-! ### Line Supervisor -/

/-- The seven line states, in code order (R25). -/
inductive LineState where
  | stopped | warming | lowering | running | holding | stopping | tripped
  deriving DecidableEq, Repr

/-- The seven trip causes (R25, R183). -/
inductive TripCause where
  | estop | webBreak | webReverse | feedTimeout | bladeJam | hoodFault | rollOut
  deriving DecidableEq, Repr

/-- The set of hold causes (R180). -/
structure HoldCauses where
  starved : Bool
  trackFull : Bool
  heat : Bool
  deriving DecidableEq, Repr

inductive HoodState where
  | up | lowering | down | raising
  deriving DecidableEq, Repr

/-- MOTION_SET's settings (R176). -/
structure MotionSettings where
  vMax : Nat
  accel : Nat
  hoodTimeout : Nat
  hoodDelay : Nat
  deriving DecidableEq, Repr

/-- The Line Supervisor (R175). -/
structure Supervisor where
  line : LineState
  prev : LineState
  tripCause : Option TripCause
  stopPending : Bool
  causes : HoldCauses
  vReq : Nat
  formerLimit : Option Nat
  spliceLimit : Bool
  vPlan : Nat
  vPlanRun : Nat
  vHeat : Nat
  vRef : Nat
  speedOut : Nat
  hoodDown : Bool
  hood : HoodState
  hoodTimer : Option Nat
  hoodDelayTimer : Option Nat
  set : MotionSettings
  updateTimer : Nat
  deriving DecidableEq, Repr

/-! ### The whole part -/

/-- Why a step stops with a fault. -/
inductive Fault where
  /-- Raised by INCOMPLETE_FRAME whose bytes are a complete frame and by UNKNOWN_KIND_FRAME whose kind byte is in the
  table of section 1.5: the command contradicts its own row, and the part meets no such event (log 7).  Safe: the model
  stops where the hardware has no such event. -/
  | contradictoryCommand
  deriving DecidableEq, Repr

/-- Why a command has no meaning. -/
inductive Refusal where
  /-- Raised by `exec` for a row that has no meaning yet.  Safe. -/
  | notModelled (mnemonic : String)
  deriving DecidableEq, Repr

/-- Everything the spec gives the part, the queue of commands that wait, and the counter of free values read (log 2). -/
structure State where
  pins : Pins
  ports : Three PortState
  router : Three RouterPort
  store : Store
  queue : RunQueue
  former : Former
  tracker : Tracker
  zones : Four Zone
  settledReported : Bool
  dose : Dose
  monitor : Monitor
  roll : Roll
  sup : Supervisor
  free : Nat
  pending : List Instr
  deriving DecidableEq, Repr

/-! ### Device reset values -/

/-- Every input at its inactive level under the default polarity of R84 (log 5). -/
def Pins.inactive : Pins :=
  { bladeHome := false, hoodUp := false, hoodDown := false, jointDetector := false, estop := true,
    infeedA := false, infeedB := false, outfeedA := false, outfeedB := false }

/-- R1, R22. -/
def PortState.reset : PortState :=
  { rxFrame := [], response := ⟨0x01, .ok, []⟩, timeout := 0, timer := none, lost := false, frameCount := 0,
    badCount := 0, dataOut := [] }

/-- A record that holds nothing, at a level (R26). -/
def EventRecord.clear (level : Nat) : EventRecord :=
  { level := level, flag := false, count := 0, detail := List.replicate 8 0 }

/-- R26, R34. -/
def RouterPort.reset : RouterPort := { floor := 0, records := List.replicate 20 (EventRecord.clear 1) }

/-- R35. -/
def Slot.cleared : Slot := { state := .empty, lead := 0, tail := 0, stepCount := 0, steps := [], refs := 0 }

/-- R35, R42. -/
def Store.reset : Store := { slots := List.replicate 16 Slot.cleared, load := none }

/-- R43. -/
def RunQueue.reset : RunQueue := { orders := [], active := false, nextId := 1, low := 0 }

/-- R58. -/
def FormerSettings.default : FormerSettings :=
  { f := 20, tuck := 40, retractAllow := 40, retractTimeout := 400, inNum := 1, inDen := 1, outNum := 1, outDen := 1 }

/-- The former at rest with these settings: the reset columns of R57. -/
def Former.atRest (set : FormerSettings) : Former :=
  { state := .idle, resume := none, hold := .none, panel := none, step := none, rep := 0, depth := 0, target := 0,
    trigger := none, late := false, reachedInStop := false, cIn := 0, cOut := 0, timer := none, bridgeTarget := none,
    retractAfterTrip := false, bladeSide := false, set := set }

/-- R84. -/
def InputSettings.default : InputSettings :=
  { bladeHomeTime := 3, hoodUpTime := 10, hoodDownTime := 10, jointDetectorTime := 2,
    bladeHomePol := true, hoodUpPol := true, hoodDownPol := true, jointDetectorPol := true, estopPol := false,
    infeedReversed := false, outfeedReversed := false }

/-- R81, R86, R93, R96, R98, R100; each filtered level is the pin's, through the default polarity (R83). -/
def Tracker.powerOn (pins : Pins) : Tracker :=
  { pIn := 0, pOut := 0, high := 0,
    bladeHome := ⟨pins.bladeHome, none⟩, hoodUp := ⟨pins.hoodUp, none⟩, hoodDown := ⟨pins.hoodDown, none⟩,
    jointDetector := ⟨pins.jointDetector, none⟩, set := InputSettings.default,
    joints := [], droppedCaptures := 0, droppedMarks := 0, map := [], table := [], nextPanel := 0, reports := [],
    begun := 0, taken := 0 }

/-- R103; the timers run from device reset (R110, R112, R114). -/
def Zone.reset : Zone :=
  { state := .off, armed := false, target := 0, measured := 0, held := false, duty := 0, windowDuty := 0, blank := 0,
    soft := 0, hi := 0, purge := 0, settle := 0, gain := 0, dutyMax := 1000, softDuty := 250, softTime := 60,
    purgeDelay := 10, purgeTime := 30, valve := false, probeTimer := 100, regTimer := 1000, windowTimer := 1000 }

/-- R124. -/
def Recipe.blank : Recipe :=
  { valid := false, tBase := 0, inc := ⟨0, 0, 0, 0⟩, vNom := 0, dMin := 0, dMax := 0, tScorch := 0, tStandby := 0,
    band := 0, settle := 0 }

/-- R126. -/
def TunnelSettings.default : TunnelSettings := { n := 32, pitch := 500, lTe := 4000, b1 := 8, b2 := 16, b3 := 24 }

/-- R124, R127, R129, R136. -/
def Dose.reset : Dose :=
  { recipes := ⟨Recipe.blank, Recipe.blank, Recipe.blank, Recipe.blank⟩, tunnel := TunnelSettings.default,
    tunnelRecipe := none, pendingRecipe := none, cells := List.replicate 32 none, nextShift := 500, sampleTimer := 100 }

/-- R137. -/
def ZoneMonitor.reset : ZoneMonitor :=
  { mode := .off, tLimit := 2500, blankSet := 5, deglitchSet := 3, blank := 0, deglitch := 0, acted := false,
    warn := false, retry := false, hold := .none, targetChanged := false, probeFlagged := false }

/-- R151; the emergency-stop level is the pin's, through the default polarity (R148). -/
def Monitor.powerOn (pins : Pins) : Monitor :=
  { zones := ⟨ZoneMonitor.reset, ZoneMonitor.reset, ZoneMonitor.reset, ZoneMonitor.reset⟩, interval := 0,
    intervalCount := 0, position := 0, test := none, testPeriods := 0, testLatest := none, vBreakMin := 0,
    breakTime := 20, breakTimer := none, estop := !pins.estop, checkTimer := 1000 }

/-- R152. -/
def RollGeometry.default : RollGeometry :=
  { lDf := 20000, lSf := 40000, j := 800, c := 2000, a := 6000, wDet := 1500, tol := 300, reserve := 15000,
    low := 100000, lK := 40000, cutOffset := 1000, vSplice := 40, splicePulse := 20, cutPulse := 10 }

/-- The reset columns of R153 and R156. -/
def Planner.reset : Planner :=
  { status := none, state := .idle, forced := false, pFire := none, stretch := none, freeze := none,
    outcome := .noneMade, expected := none, jointDue := none, firedSinceArm := false, pulse := none }

/-- The reset columns of R168. -/
def Cut.reset : Cut :=
  { state := .idle, target := none, midpoint := false, point := none, fired := false, pulse := none }

/-- R176. -/
def MotionSettings.default : MotionSettings := { vMax := 120, accel := 4, hoodTimeout := 10, hoodDelay := 50 }

/-- R175; the hood state is from the hood-up switch, with the hood timer started when it is inactive (R177). -/
def Supervisor.powerOn (pins : Pins) : Supervisor :=
  { line := .stopped, prev := .stopped, tripCause := none, stopPending := false, causes := ⟨false, false, false⟩,
    vReq := 0, formerLimit := none, spliceLimit := false, vPlan := 0, vPlanRun := 0, vHeat := 120, vRef := 0,
    speedOut := 0, hoodDown := false, hood := if pins.hoodUp then .up else .raising,
    hoodTimer := if pins.hoodUp then none else some 10000, hoodDelayTimer := none, set := MotionSettings.default,
    updateTimer := 100 }

/-- The part after a device reset with these levels at its pins. -/
def State.powerOn (pins : Pins) : State :=
  { pins := pins,
    ports := ⟨PortState.reset, PortState.reset, PortState.reset⟩,
    router := ⟨RouterPort.reset, RouterPort.reset, RouterPort.reset⟩,
    store := Store.reset,
    queue := RunQueue.reset,
    former := Former.atRest FormerSettings.default,
    tracker := Tracker.powerOn pins,
    zones := ⟨Zone.reset, Zone.reset, Zone.reset, Zone.reset⟩,
    settledReported := false,
    dose := Dose.reset,
    monitor := Monitor.powerOn pins,
    roll := { geo := RollGeometry.default, planner := Planner.reset, cut := Cut.reset },
    sup := Supervisor.powerOn pins,
    free := 0,
    pending := [] }

/-- The machine right after reset (log 5 for the pins). -/
def State.reset : State := State.powerOn Pins.inactive

/-! ### Changing one block -/

def State.onPins (f : Pins → Pins) (s : State) : State := { s with pins := f s.pins }
def State.onPort (p : Port) (f : PortState → PortState) (s : State) : State :=
  { s with ports := s.ports.set p (f (s.ports.get p)) }
def State.onRouter (f : Three RouterPort → Three RouterPort) (s : State) : State := { s with router := f s.router }
def State.onStore (f : Store → Store) (s : State) : State := { s with store := f s.store }
def State.onQueue (f : RunQueue → RunQueue) (s : State) : State := { s with queue := f s.queue }
def State.onFormer (f : Former → Former) (s : State) : State := { s with former := f s.former }
def State.onTracker (f : Tracker → Tracker) (s : State) : State := { s with tracker := f s.tracker }
def State.onZones (f : Four Zone → Four Zone) (s : State) : State := { s with zones := f s.zones }
def State.onZone (z : Fin 4) (f : Zone → Zone) (s : State) : State :=
  { s with zones := s.zones.set z (f (s.zones.get z)) }
def State.withSettled (b : Bool) (s : State) : State := { s with settledReported := b }
def State.onDose (f : Dose → Dose) (s : State) : State := { s with dose := f s.dose }
def State.onMonitor (f : Monitor → Monitor) (s : State) : State := { s with monitor := f s.monitor }
def State.onZoneMonitor (z : Fin 4) (f : ZoneMonitor → ZoneMonitor) (s : State) : State :=
  { s with monitor := { s.monitor with zones := s.monitor.zones.set z (f (s.monitor.zones.get z)) } }
def State.onPlanner (f : Planner → Planner) (s : State) : State :=
  { s with roll := { s.roll with planner := f s.roll.planner } }
def State.onCut (f : Cut → Cut) (s : State) : State := { s with roll := { s.roll with cut := f s.roll.cut } }
def State.onGeo (f : RollGeometry → RollGeometry) (s : State) : State :=
  { s with roll := { s.roll with geo := f s.roll.geo } }
def State.onSup (f : Supervisor → Supervisor) (s : State) : State := { s with sup := f s.sup }
def State.nextFree (s : State) : State := { s with free := s.free + 1 }

end Sys2Proof.Machine
end

