-- ==== Sys2Proof/Machine/Ops.lean ====
section
/-! DEFINITION. The operations every block uses: modular positions (section 5.2 of 00_scope.md), little-endian fields
(section 5.5), the transaction and its answer (R2 to R10, R16, R17), recording an occurrence (R27) and the attention
output (R28), and changing a panel record. -/

namespace Sys2Proof.Machine

/-! ### Positions -/

/-- "a is at or after b" and "p reaches x" (section 5.2 of 00_scope.md). -/
def reached (a b : Pos) : Bool := decide ((a - b).toNat < 2 ^ 31)

/-- "a is after b". -/
def after (a b : Pos) : Bool := reached a b && !decide (a = b)

/-- A distance as a position offset, modulo 2^32. -/
def dist (n : Nat) : Pos := BitVec.ofNat 32 n

/-- `p` moved on by a distance. -/
def ahead (p : Pos) (n : Nat) : Pos := p + dist n

/-- A timer that runs for so many ms. -/
def running (t : Option Nat) : Bool := t.isSome

/-! ### Bytes -/

/-- `n` little-endian bytes of `v`. -/
def leBytes : Nat → Nat → List Byte
  | 0, _ => []
  | n + 1, v => BitVec.ofNat 8 v :: leBytes n (v / 256)

/-- The number little-endian bytes spell. -/
def leNat : List Byte → Nat
  | [] => 0
  | b :: bs => b.toNat + 256 * leNat bs

def byte1 (v : Nat) : List Byte := leBytes 1 v
def bytes2 (v : Nat) : List Byte := leBytes 2 v
def bytes3 (v : Nat) : List Byte := leBytes 3 v
def bytes4 (v : Nat) : List Byte := leBytes 4 v
def posBytes (p : Pos) : List Byte := leBytes 4 p.toNat
def panelBytes (n : BitVec 16) : List Byte := leBytes 2 n.toNat

/-- A flag bit of weight `w`. -/
def bit (b : Bool) (w : Nat) : Nat := if b then w else 0

/-- The set of zones for which `f` holds, as a sum of powers of two (R25). -/
def zoneSet (f : Fin 4 → Bool) : Nat := bit (f 0) 1 + bit (f 1) 2 + bit (f 2) 4 + bit (f 3) 8

/-- The four zones in order. -/
def zonesInOrder : List (Fin 4) := [0, 1, 2, 3]

/-! ### Transactions -/

/-- Port numbers (R1). -/
def portNumber : Port → Nat
  | .line => 0
  | .pattern => 1
  | .roll => 2

/-- Status codes (R7). -/
def statusCode : Status → Nat
  | .ok => 0 | .accepted => 1 | .clamped => 2 | .empty => 3
  | .badKind => 16 | .badLength => 17 | .notPermitted => 18 | .badValue => 19 | .wrongState => 20
  | .busy => 21 | .full => 22 | .inUse => 23 | .notFound => 24 | .tooLate => 25

/-- A response frame as it is shifted out (section 1.3). -/
def responseBytes (r : Response) : List Byte :=
  r.kind :: BitVec.ofNat 8 (statusCode r.status) :: BitVec.ofNat 8 r.payload.length :: r.payload

/-- What a transaction of `n` whole bytes shifts out: the response, then fill 0 (R2). -/
def shiftedOut (r : Response) (n : Nat) : List Byte :=
  (List.range n).map (fun i => (responseBytes r).getD i 0)

/-- The bytes of a clocked transaction go in while the pending response goes out (R2, R3). -/
def shiftIn (p : Port) (bytes : List Byte) (s : State) : State :=
  s.onPort p fun q =>
    { q with rxFrame := keptBytes bytes, dataOut := shiftedOut q.response bytes.length }

/-- The presence timer restarts from the full timeout, or stays off (R16, R17). -/
def refreshed (timeout : Nat) : Option Nat := if timeout = 0 then none else some (timeout * 100)

/-- A complete frame is counted, refreshes the presence timer and clears the lost flag (R9, R17). -/
def countFrame (p : Port) (s : State) : State :=
  s.onPort p fun q =>
    { q with frameCount := q.frameCount + 1, lost := false, timer := refreshed q.timeout }

/-- An incomplete frame is counted as bad, stopping at 255 (R9). -/
def countBad (p : Port) (s : State) : State :=
  s.onPort p fun q => { q with badCount := min 255 (q.badCount + 1) }

/-- What a request is answered with, beside the kind byte (R6). -/
structure Answer where
  status : Status
  payload : List Byte
  deriving DecidableEq, Repr

/-- The new pending response replaces the consumed one and the receive frame is emptied (R3, R4). -/
def respond (p : Port) (kind : Byte) (a : Answer) (s : State) : State :=
  s.onPort p fun q => { q with response := ⟨kind, a.status, a.payload⟩, rxFrame := [] }

/-- A refusal changes no state of any block (R7). -/
def refuse (st : Status) (s : State) : State × Answer := (s, ⟨st, []⟩)

/-- An answer of OK with a payload. -/
def okWith (payload : List Byte) (s : State) : State × Answer := (s, ⟨.ok, payload⟩)

/-- A transaction that carries a request of a known kind: shifted in and out, then the four checks of R8 in their
order; a frame that passes is handed to its block with the number of its port. -/
def serve (kind : Byte) (authority : Option Port) (lengthOk : Nat → Bool)
    (block : Port → List Byte → State → State × Answer) (f : Frame) (s : State) : State :=
  let s1 := shiftIn f.port (f.bytes kind) s
  match parseFrame (s1.ports.get f.port).rxFrame with
  | none => respond f.port kind ⟨.badLength, []⟩ (countBad f.port s1)
  | some (_, payload) =>
    let s2 := countFrame f.port s1
    if authority ≠ none ∧ authority ≠ some f.port then respond f.port kind ⟨.notPermitted, []⟩ s2
    else if lengthOk payload.length then
      let r := block f.port payload s2
      respond f.port kind r.2 r.1
    else respond f.port kind ⟨.badLength, []⟩ s2

/-- A length that must be one number. -/
def exactly (n m : Nat) : Bool := decide (m = n)

/-! ### Event Router -/

/-- Kind numbers (R23). -/
def eventNumber : EventKind → Nat
  | .trip => 0 | .lineState => 1 | .zoneFault => 2 | .probeOpen => 3 | .zonePurge => 4 | .hold => 5
  | .strokeLate => 6 | .masterLost => 7 | .spliceScheduled => 8 | .spliceDone => 9 | .spliceFailed => 10
  | .rollLow => 11 | .cutDone => 12 | .orderDone => 13 | .runQueueLow => 14 | .runQueueEmpty => 15
  | .reportReady => 16 | .reportQueueFull => 17 | .lineResetDone => 18 | .zonesSettled => 19

/-- The number d of detail bytes of each kind, by kind number (R23). -/
def detailLengths : List Nat := [6, 3, 6, 1, 5, 1, 2, 1, 5, 8, 5, 4, 8, 5, 2, 0, 1, 2, 2, 2]

/-- A detail in the eight bytes of a record. -/
def detailBytes (d : List Byte) : List Byte := (d ++ List.replicate 8 0).take 8

/-- What a record becomes when an occurrence reaches it (R27). -/
def noteRecord (detail : List Byte) (r : EventRecord) : EventRecord :=
  if r.level = 0 then r
  else { r with flag := true, count := if r.flag then min 255 (r.count + 1) else 1, detail := detailBytes detail }

/-- An occurrence reaches one port (R27). -/
def notePort (k : EventKind) (detail : List Byte) (r : RouterPort) : RouterPort :=
  { r with records := r.records.modify (eventNumber k) (noteRecord detail) }

/-- An occurrence is delivered to all three ports (R23). -/
def raise (k : EventKind) (detail : List Byte) (s : State) : State :=
  s.onRouter fun t => t.map (notePort k detail)

/-- An occurrence is delivered to the two ports other than `p` (R18, R23). -/
def raiseExcept (p : Port) (k : EventKind) (detail : List Byte) (s : State) : State :=
  s.onRouter fun t => (t.map (notePort k detail)).set p (t.get p)

/-- The attention output of a port is asserted (R28). -/
def attention (r : RouterPort) : Bool := r.records.any fun e => e.flag && decide (r.floor < e.level)

/-! ### Panel records -/

/-- Change the record of a panel (R93: no two records share a number). -/
def onPanel (n : BitVec 16) (f : PanelRec → PanelRec) (s : State) : State :=
  s.onTracker fun t => { t with table := t.table.map fun r => if r.number = n then f r else r }

/-- Change the record of the panel in formation, if there is one. -/
def onFormingPanel (f : PanelRec → PanelRec) (s : State) : State :=
  match s.former.panel with
  | none => s
  | some n => onPanel n f s

/-- A count that stops at 65535 (R93). -/
def bump16 (n : Nat) : Nat := min 65535 (n + 1)

/-! ### Recipes and line states -/

/-- The tunnel recipe's entry, when there is a tunnel recipe (R127). -/
def tunnelEntry (s : State) : Option Recipe := s.dose.tunnelRecipe.map s.dose.recipes.get

/-- A zone is used by a recipe (R124). -/
def usedZone (r : Recipe) (z : Fin 4) : Bool := decide (r.inc.get z ≠ 0)

/-- A slot of the Pattern Store. -/
def slotAt (s : State) (i : Fin 16) : Slot := s.store.slots.getD i.val Slot.cleared

/-- Change a slot. -/
def onSlot (i : Fin 16) (f : Slot → Slot) (s : State) : State :=
  s.onStore fun st => { st with slots := st.slots.modify i.val f }

end Sys2Proof.Machine
end

