-- ==== Sys2Proof/Machine/Flags.lean ====
section
/-! DEFINITION. Codes and flag bytes the masters read, and the outputs and conditions that follow from the state
(R25, R56, R101, R102, R116, R120, R123, R151, R174; log 22). -/

namespace Sys2Proof.Machine

/-! ### Codes (R25 and the view tables) -/

def lineStateCode : LineState → Nat
  | .stopped => 0 | .warming => 1 | .lowering => 2 | .running => 3 | .holding => 4 | .stopping => 5 | .tripped => 6

def tripCauseCode : TripCause → Nat
  | .estop => 1 | .webBreak => 2 | .webReverse => 3 | .feedTimeout => 4 | .bladeJam => 5 | .hoodFault => 6 | .rollOut => 7

/-- A set of hold causes is the sum of its codes (R25). -/
def causesCode (c : HoldCauses) : Nat := bit c.starved 1 + bit c.trackFull 2 + bit c.heat 4

def noCauses (c : HoldCauses) : Bool := !c.starved && !c.trackFull && !c.heat

def hoodStateCode : HoodState → Nat
  | .up => 0 | .lowering => 1 | .down => 2 | .raising => 3

def formerStateCode : FormerState → Nat
  | .idle => 0 | .lead => 1 | .wait => 2 | .feed => 3 | .tuck => 4 | .press => 5 | .retract => 6 | .flat => 7
  | .tail => 8 | .bridge => 9 | .held => 10

def holdReasonCode : HoldReason → Nat
  | .none => 0 | .stoppedMid => 1 | .starved => 2 | .trackFull => 3

def markKindCode : MarkKind → Nat
  | .panelStart => 0 | .panelEnd => 1 | .joint => 2 | .bridgeStart => 3 | .bridgeEnd => 4

/-- The rank of a verdict (R133) is also its code. -/
def rankOf : Verdict → Nat
  | .none => 0 | .good => 1 | .under => 2 | .over => 3 | .unverified => 4 | .scorch => 5

def panelStateCode : PanelState → Nat
  | .forming => 0 | .travelling => 1 | .waitingReport => 2 | .reported => 3

def zoneStateCode : ZoneState → Nat
  | .off => 0 | .soft => 1 | .regulating => 2 | .purge => 3 | .tripped => 4 | .probeFault => 5

def monitorModeCode : MonitorMode → Nat
  | .off => 0 | .warn => 1 | .retry => 2 | .latch => 3 | .target => 4

/-- Trip hold codes of the MONITOR_SET response (R138). -/
def tripHoldCode : TripHold → Nat
  | .none => 0 | .retry => 2 | .latch => 3 | .target => 4

def plannerStateCode : PlannerState → Nat
  | .idle => 0 | .planning => 1 | .scheduled => 2 | .approach => 3 | .fired => 4

def cutStateCode : CutState → Nat
  | .idle => 0 | .waiting => 1 | .fired => 2

def searchOutcomeCode : SearchOutcome → Nat
  | .noneMade => 0 | .candidate => 1 | .noCandidate => 2 | .noFreeMarks => 3

/-- An index, or 255 for none. -/
def orNone255 (i : Option (Fin 4)) : Nat :=
  match i with
  | none => 255
  | some k => k.val

/-! ### Former outputs (R56) -/

def feedGateOpen (f : Former) : Bool :=
  match f.state with
  | .lead | .feed | .flat | .tail | .bridge => true
  | .idle | .wait | .tuck | .press | .retract | .held => false

def bladeAdvance (f : Former) : Bool :=
  match f.state with
  | .tuck | .press => true
  | .idle | .lead | .wait | .feed | .retract | .flat | .tail | .bridge | .held => false

def bladeRetract (f : Former) : Bool :=
  match f.state with
  | .retract => true
  | .idle => f.retractAfterTrip
  | .lead | .wait | .feed | .tuck | .press | .flat | .tail | .bridge | .held => false

/-- The former is in a pleated step (R56). -/
def inPleatedStep (f : Former) : Bool :=
  match f.state with
  | .wait | .feed | .tuck | .press | .retract => true
  | .held => decide (f.resume = some .wait)
  | .idle | .lead | .flat | .tail | .bridge => false

/-- A bridge runs at the former, held or not (R88, R181). -/
def bridgeRunning (f : Former) : Bool :=
  decide (f.state = .bridge) || (decide (f.state = .held) && decide (f.resume = some .bridge))

/-- Work in formation (R181). -/
def workInFormation (f : Former) : Bool := f.panel.isSome || bridgeRunning f

/-- Byte 23 of the FORMER view (R80). -/
def formerFlags (f : Former) : Nat :=
  bit f.panel.isSome 1 + bit f.trigger.isSome 2 + bit f.late 4 + bit f.retractAfterTrip 8 +
    (match f.bridgeTarget with
     | none => 0
     | some r => 16 * (r.val + 1))

/-! ### Switch inputs (R83) -/

/-- A pin's level read through its polarity setting: true is active. -/
def readPin (high pol : Bool) : Bool := high == pol

def pinOf (p : Pins) : Switch → Bool
  | .bladeHome => p.bladeHome
  | .hoodUp => p.hoodUp
  | .hoodDown => p.hoodDown
  | .jointDetector => p.jointDetector

def polarityOf (c : InputSettings) : Switch → Bool
  | .bladeHome => c.bladeHomePol
  | .hoodUp => c.hoodUpPol
  | .hoodDown => c.hoodDownPol
  | .jointDetector => c.jointDetectorPol

def filterTimeOf (c : InputSettings) : Switch → Nat
  | .bladeHome => c.bladeHomeTime
  | .hoodUp => c.hoodUpTime
  | .hoodDown => c.hoodDownTime
  | .jointDetector => c.jointDetectorTime

def filterOf (t : Tracker) : Switch → Filter
  | .bladeHome => t.bladeHome
  | .hoodUp => t.hoodUp
  | .hoodDown => t.hoodDown
  | .jointDetector => t.jointDetector

/-- The reading of a switch's pin now (R83). -/
def reading (s : State) (sw : Switch) : Bool := readPin (pinOf s.pins sw) (polarityOf s.tracker.set sw)

/-- Byte 26 of the MAP view: filtered levels and the unfiltered emergency stop (R101). -/
def filteredLevels (s : State) : Nat :=
  bit s.tracker.bladeHome.level 1 + bit s.tracker.hoodUp.level 2 + bit s.tracker.hoodDown.level 4 +
    bit s.tracker.jointDetector.level 8 + bit (readPin s.pins.estop s.tracker.set.estopPol) 16

/-! ### Zones -/

inductive BandStatus where
  | none | inBand | hi | lo
  deriving DecidableEq, Repr

def bandStatusCode : BandStatus → Nat
  | .none => 0 | .inBand => 1 | .hi => 2 | .lo => 3

/-- A zone's band status, never latched (R116). -/
def bandOf (entry : Option Recipe) (z : Zone) : BandStatus :=
  match entry with
  | none => .none
  | some r =>
    if z.state = .off then .none
    else if z.target + r.band < z.measured then .hi
    else if z.measured + r.band < z.target then .lo
    else .inBand

/-- A zone is in band (R116). -/
def inBand (entry : Option Recipe) (z : Zone) : Bool :=
  decide (bandOf entry z = .inBand) && decide (z.blank = 0) &&
    (decide (z.state = .soft) || decide (z.state = .regulating))

/-- A zone is settled for the tunnel recipe (R120, R123). -/
def zoneSettled (entry : Option Recipe) (z : Zone) : Bool :=
  match entry with
  | none => false
  | some r => decide (r.settle ≤ z.settle)

/-- The settled condition (R120). -/
def settledNow (s : State) : Bool :=
  match tunnelEntry s with
  | none => false
  | some r => zonesInOrder.all fun z => !usedZone r z || zoneSettled (some r) (s.zones.get z)

/-- The vent is open exactly in PURGE (R102). -/
def ventOpen (z : Zone) : Bool := decide (z.state = .purge)

/-- Test current flows through the probe of the zone under test (R111, R145). -/
def testCurrent (s : State) (z : Fin 4) : Bool := decide (s.monitor.test = some z)

/-- The hood lift output is active while the hood is commanded down (R177). -/
def hoodLift (s : State) : Bool := s.sup.hoodDown

/-- The splice fire and cut fire outputs are active while their pulses run (R162, R170). -/
def spliceFire (s : State) : Bool := running s.roll.planner.pulse
def cutFire (s : State) : Bool := running s.roll.cut.pulse

/-- Byte 2 of the ZONE view (R123). -/
def zoneFlags (entry : Option Recipe) (z : Zone) : Nat :=
  bit z.armed 1 + bit z.valve 2 + bit (ventOpen z) 4 + bit z.held 8 + bit (decide (0 < z.blank)) 16 +
    bit (inBand entry z) 32 + bit (zoneSettled entry z) 64

/-- The monitor flags byte of a zone (R151). -/
def monitorFlags (m : Monitor) (z : Fin 4) : Nat :=
  let k := m.zones.get z
  bit k.warn 1 + bit k.retry 2 + bit (decide (k.hold ≠ .none)) 4 + bit k.targetChanged 8 + bit k.probeFlagged 16 +
    bit (decide (m.test = some z)) 32 + bit (decide (0 < k.blank)) 64

/-! ### Panels, planner, cuts, line -/

/-- Byte 6 of the panel record layout (section 5.9). -/
def panelFlags (r : PanelRec) : Nat :=
  bit r.joint 1 + bit r.jointUnconfirmed 2 + bit r.aborted 4 + bit r.cutThrough 8 + bit r.pInEnd.isSome 16

/-- Byte 2 of the SPLICE view (R174). -/
def spliceFlags (s : State) : Nat :=
  let p := s.roll.planner
  bit p.status.isSome 1 + bit (p.status.any fun r => r.lowRaised) 2 + bit p.jointDue.isSome 4 +
    bit s.sup.spliceLimit 8 + bit (spliceFire s) 16 + bit (cutFire s) 32 + bit p.forced 64 + bit p.firedSinceArm 128

/-- Byte 46 of the SPLICE view (R174). -/
def cutFlags (r : Roll) : Nat :=
  bit r.cut.target.isSome 1 + bit r.cut.midpoint 2 + bit r.cut.fired 4 +
    bit (r.planner.stretch.any fun st => st.e.isNone) 8

/-- Byte 6 of the LINE view (R188). -/
def lineFlags (s : State) : Nat :=
  bit s.sup.hoodDown 1 + bit (running s.sup.hoodTimer) 2 + bit (running s.sup.hoodDelayTimer) 4 +
    bit s.monitor.estop 8 + bit s.settledReported 16 + bit s.sup.spliceLimit 32 + bit s.sup.formerLimit.isSome 64

/-- The attributes byte of an order in the QUEUE view (R54). -/
def orderAttributes (o : Order) (isActive : Bool) : Nat :=
  o.recipe.val + bit isActive 4 + bit o.cancel 8 + bit o.frozen 16

end Sys2Proof.Machine
end

