-- ==== Sys2Proof/Machine/Operands.lean ====
section
/-! DEFINITION. The operands of the commands: the fields of a request payload (little-endian, section 5.5 of
00_scope.md), each request's settings as its payload table lays them out, the ranges those tables give, and what an
encoder's new levels mean (R81). -/

namespace Sys2Proof.Machine

/-! ### Fields of a payload -/

def u8 (p : List Byte) (i : Nat) : Nat := (p.getD i 0).toNat
def u16 (p : List Byte) (i : Nat) : Nat := leNat [p.getD i 0, p.getD (i + 1) 0]
def u24 (p : List Byte) (i : Nat) : Nat := leNat [p.getD i 0, p.getD (i + 1) 0, p.getD (i + 2) 0]
def u32 (p : List Byte) (i : Nat) : Nat :=
  leNat [p.getD i 0, p.getD (i + 1) 0, p.getD (i + 2) 0, p.getD (i + 3) 0]

/-- A signed byte, two's complement (the grade of a step record). -/
def s8 (p : List Byte) (i : Nat) : Int := (p.getD i 0).toInt

/-- `lo ≤ n ≤ hi`. -/
def within (n lo hi : Nat) : Bool := decide (lo ≤ n) && decide (n ≤ hi)

/-- A small number as an index 0..3; a number above 3 is out of range before this is asked. -/
def fin4 (n : Nat) : Fin 4 := if h : n < 4 then ⟨n, h⟩ else 0

/-- A slot id; a number above 15 is out of range before this is asked. -/
def fin16 (n : Nat) : Fin 16 := if h : n < 16 then ⟨n, h⟩ else 0

/-! ### Pattern Store and Run Queue (section 3.3) -/

/-- The step record at byte `i` of a PATTERN_STEPS payload. -/
def stepRecAt (p : List Byte) (i : Nat) : StepRec :=
  { kind := u8 p i, width := u16 p (i + 1), depth := u16 p (i + 3), rep := u8 p (i + 5), press := u16 p (i + 6),
    grade := s8 p (i + 8) }

/-- The step records of a PATTERN_STEPS payload of `9k` bytes. -/
def stepRecs (p : List Byte) : List StepRec := (List.range (p.length / 9)).map fun k => stepRecAt p (9 * k)

/-- A length PATTERN_STEPS allows (R39). -/
def stepsLength (n : Nat) : Bool := decide (n % 9 = 0) && within n 9 54

/-- The first failing field of a record in the order of R40, among those its kind uses (R36): 1 kind, 2 width, 3 depth,
4 repeat, 5 press time, 6 grade. -/
def badField (r : StepRec) : Option Nat :=
  if 3 < r.kind then some 1
  else if !within r.width 20 800 then some 2
  else if r.kind ≠ 3 ∧ 300 < r.depth then some 3
  else if !within r.rep 1 255 then some 4
  else if r.kind ≠ 3 ∧ (r.press < 20 ∨ 2000 < r.press) then some 5
  else if r.kind ≤ 1 ∧ (r.grade < -50 ∨ 50 < r.grade) then some 6
  else none

/-- The lowest failing index from `i` among `n` declared records, and what was found there (R40). -/
def firstBad : Nat → Nat → List StepRec → Option (Nat × Nat)
  | 0, _, _ => none
  | _ + 1, i, [] => some (i, 7)
  | n + 1, i, r :: rs =>
    match badField r with
    | some code => some (i, code)
    | none => firstBad n (i + 1) rs

/-! ### Settings of the line port's requests -/

/-- FORMER_SET (section 4.1). -/
def formerSettingsOf (p : List Byte) : FormerSettings :=
  { f := u8 p 0, tuck := u16 p 1, retractAllow := u16 p 3, retractTimeout := u16 p 5, inNum := u16 p 7,
    inDen := u16 p 9, outNum := u16 p 11, outDen := u16 p 13 }

/-- The ranges of FORMER_SET (R58). -/
def formerSettingsOk (c : FormerSettings) : Bool :=
  within c.f 1 255 && within c.tuck 10 500 && within c.retractAllow 10 1000 && within c.retractTimeout 50 5000 &&
    decide (c.retractAllow ≤ c.retractTimeout) && decide (1 ≤ c.inNum) && decide (1 ≤ c.inDen) &&
    decide (1 ≤ c.outNum) && decide (1 ≤ c.outDen)

/-- TUNNEL_SET (section 7.2). -/
def tunnelSettingsOf (p : List Byte) : TunnelSettings :=
  { n := u8 p 0, pitch := u16 p 1, lTe := u32 p 3, b1 := u8 p 7, b2 := u8 p 8, b3 := u8 p 9 }

/-- The distance beyond which a panel's last cell has been judged: L_te + (N + 1) × pitch (R126, R127). -/
def drainDistance (t : TunnelSettings) : Nat := t.lTe + (t.n + 1) * t.pitch

/-- The ranges of TUNNEL_SET and its check against the knife distance (R126). -/
def tunnelSettingsOk (t : TunnelSettings) (lK : Nat) : Bool :=
  within t.n 16 128 && within t.pitch 50 20000 && within t.lTe 0 16777215 && decide (t.b1 ≤ t.b2) &&
    decide (t.b2 ≤ t.b3) && decide (t.b3 ≤ t.n) && decide (drainDistance t ≤ lK)

/-- MOTION_SET (section 10.2). -/
def motionSettingsOf (p : List Byte) : MotionSettings :=
  { vMax := u16 p 0, accel := u16 p 2, hoodTimeout := u8 p 4, hoodDelay := u8 p 5 }

/-- The ranges of MOTION_SET, its reserved byte among them. -/
def motionSettingsOk (p : List Byte) (m : MotionSettings) : Bool :=
  decide (1 ≤ m.vMax) && decide (1 ≤ m.accel) && within m.hoodTimeout 1 30 && decide (u8 p 6 = 0)

/-- INPUT_SET (section 5.2). -/
def inputSettingsOf (p : List Byte) : InputSettings :=
  { bladeHomeTime := u8 p 0, hoodUpTime := u8 p 1, hoodDownTime := u8 p 2, jointDetectorTime := u8 p 3,
    bladeHomePol := (u8 p 4).testBit 0, hoodUpPol := (u8 p 4).testBit 1, hoodDownPol := (u8 p 4).testBit 2,
    jointDetectorPol := (u8 p 4).testBit 3, estopPol := (u8 p 4).testBit 4,
    infeedReversed := (u8 p 5).testBit 0, outfeedReversed := (u8 p 5).testBit 1 }

/-- The ranges of INPUT_SET (R84). -/
def inputSettingsOk (p : List Byte) : Bool :=
  decide (u8 p 0 ≤ 15) && decide (u8 p 1 ≤ 15) && decide (u8 p 2 ≤ 15) && decide (u8 p 3 ≤ 15) &&
    decide (u8 p 4 ≤ 31) && decide (u8 p 5 ≤ 3)

/-- Two settings have the same polarity and direction (R84). -/
def sameWiring (a b : InputSettings) : Bool :=
  a.bladeHomePol == b.bladeHomePol && a.hoodUpPol == b.hoodUpPol && a.hoodDownPol == b.hoodDownPol &&
    a.jointDetectorPol == b.jointDetectorPol && a.estopPol == b.estopPol &&
    a.infeedReversed == b.infeedReversed && a.outfeedReversed == b.outfeedReversed

/-- ROLL_GEOMETRY_SET (section 9.1). -/
def geometryOf (p : List Byte) : RollGeometry :=
  { lDf := u32 p 0, lSf := u32 p 4, j := u32 p 8, c := u32 p 12, a := u32 p 16, wDet := u32 p 20, tol := u32 p 24,
    reserve := u32 p 28, low := u32 p 32, lK := u32 p 36, cutOffset := u32 p 40, vSplice := u16 p 44,
    splicePulse := u8 p 46, cutPulse := u8 p 47 }

/-- The ranges of ROLL_GEOMETRY_SET and its check against the tunnel geometry (R152). -/
def geometryOk (g : RollGeometry) (t : TunnelSettings) : Bool :=
  within g.lDf 1 16777215 && within g.lSf (g.lDf + 1) 16777215 && within g.j 0 65535 && within g.c g.j 1000000 &&
    within g.a 0 16777215 && within g.wDet 0 1000000 && within g.tol 0 g.wDet && within g.reserve 0 16777215 &&
    within g.low 0 16777215 && within g.lK 1 16777215 && decide (g.cutOffset < g.lK) && decide (1 ≤ g.vSplice) &&
    decide (1 ≤ g.splicePulse) && decide (1 ≤ g.cutPulse) && decide (drainDistance t ≤ g.lK)

/-- RECIPE_SET with valid = 1 (section 7.1). -/
def recipeOf (p : List Byte) : Recipe :=
  { valid := true, tBase := u16 p 2, inc := ⟨u16 p 4, u16 p 6, u16 p 8, u16 p 10⟩, vNom := u16 p 12, dMin := u24 p 14,
    dMax := u24 p 17, tScorch := u16 p 20, tStandby := u16 p 22, band := u8 p 24, settle := u8 p 25 }

/-- The largest of the four increments. -/
def largestInc (r : Recipe) : Nat := max (max r.inc.z0 r.inc.z1) (max r.inc.z2 r.inc.z3)

/-- The ranges of a valid RECIPE_SET (R125). -/
def recipeOk (r : Recipe) : Bool :=
  within r.tBase 500 2000 && decide (largestInc r ≤ 1000) && decide (1 ≤ r.vNom) && decide (r.dMin < r.dMax) &&
    decide (r.tBase + largestInc r < r.tScorch) && decide (r.tScorch ≤ 2500) && decide (r.tStandby < r.tBase) &&
    within r.band 1 255 && within r.settle 1 255

/-- The ranges of ZONE_SET (R104). -/
def zoneRequestOk (p : List Byte) : Bool :=
  decide (u8 p 0 ≤ 3) && decide (u8 p 1 ≤ 2) && decide (u8 p 2 ≤ 1) && decide (u16 p 4 ≤ 1000) &&
    decide (u16 p 6 ≤ 1000) && within (u8 p 8) 1 255 && within (u8 p 9) 1 60 && within (u8 p 10) 1 120

/-- The six settings of ZONE_SET replace those in force (R104 step 1). -/
def zoneSettings (p : List Byte) (z : Zone) : Zone :=
  { z with gain := u8 p 3, dutyMax := u16 p 4, softDuty := u16 p 6, softTime := u8 p 8, purgeDelay := u8 p 9,
           purgeTime := u8 p 10 }

def monitorModeOf : Nat → MonitorMode
  | 0 => .off
  | 1 => .warn
  | 2 => .retry
  | 3 => .latch
  | _ => .target

/-- The ranges of the zone form of MONITOR_SET (R138). -/
def monitorZoneOk (p : List Byte) : Bool :=
  decide (u8 p 1 ≤ 4) && decide (u16 p 2 ≤ 2500) && decide (u8 p 4 ≤ 60) && within (u8 p 5) 1 15

/-- The ranges of the line form of MONITOR_SET (R138). -/
def monitorLineOk (p : List Byte) : Bool :=
  (decide (u8 p 1 = 0) || decide (10 ≤ u8 p 1)) && decide (1 ≤ u8 p 4)

/-! ### Encoders and probes -/

/-- What new levels of A and B make of a position: no count when both or neither changed; otherwise one count, forward
when A leads B, or B leads A for a reversed encoder (R81, R85). -/
inductive Count where
  | none | forward | reverse
  deriving DecidableEq, Repr

/-- A change of A follows B when A ends equal to B, and leads it when it ends different; a change of B the other way
round.  `oldA oldB` are the levels before, `a b` the levels after. -/
def encoderCount (reversed oldA oldB a b : Bool) : Count :=
  if (a != oldA) && (b != oldB) then .none
  else if a != oldA then (if (a != b) != reversed then .forward else .reverse)
  else if b != oldB then (if (a == b) != reversed then .forward else .reverse)
  else .none

/-- A position moved by a count (R81). -/
def moved (c : Count) (p : Pos) : Pos :=
  match c with
  | .none => p
  | .forward => p + 1
  | .reverse => p - 1

/-- A converter result is the open code (section 5.3 of 00_scope.md). -/
def openCode (result : Nat) : Bool := decide (2550 ≤ result)

/-- A converter result as a reading: clamped to 2500 (R110). -/
def clampedReading (result : Nat) : Nat := min 2500 result

end Sys2Proof.Machine
end

