-- ==== Sys2Proof/Machine/Signals.lean ====
section
/-! DEFINITION. What one block tells another inside one step (section 3 of 00_scope.md).  A command's own effect hands
on a list of signals; Machine/Cascade.lean takes them one after another, each with all that follows from it before the
next (log 8). -/

namespace Sys2Proof.Machine

/-- The failure causes of SPLICE_FAILED (R25). -/
inductive FailCause where
  | unseen | trip | masterLost
  deriving DecidableEq, Repr

inductive Sig where
  /-- A trip cause reaches the Supervisor (R183). -/
  | trip (c : TripCause)
  /-- The hood state became DOWN: LOWERING may end (R179). -/
  | hoodSeen
  /-- WARMING may end (R179). -/
  | warm
  /-- The hold causes changed: HOLDING may begin or end (R180). -/
  | causes
  /-- The former's state changed: STOPPING may end (R182). -/
  | stopCheck
  /-- The former reported a panel end or a bridge end (R181). -/
  | reportEnd
  /-- The settled condition is examined; `force` at a change of the tunnel recipe (R120). -/
  | settled (force : Bool)
  /-- The drain test (R128). -/
  | drain
  /-- The former's own conditions are examined: a length target, a trigger, blade home (R65 to R70). -/
  | former
  /-- The boundary test (R62). -/
  | boundary
  /-- Work or space came or went: the boundary test of a former HELD at a boundary (R63). -/
  | space
  /-- The line entered RUNNING, STOPPING or TRIPPED (R63, R74, R75, R76). -/
  | formerRun
  | formerPause
  | abort
  /-- The two conditions of a bridge's end (R78). -/
  | bridge
  /-- Joints whose arrival position p_in has reached (R88). -/
  | joints
  /-- Joints whose span end p_in has reached (R89). -/
  | jointsPast
  /-- The Web Tracker is asked to track an unseen joint (R87). -/
  | track (x : Pos)
  /-- A joint has passed into the former (R89, R164). -/
  | jointPassed (x : Pos)
  /-- The oldest mark against the knife (R92). -/
  | knife
  /-- The splice search (R158 to R160); `planningOnly` for the events that search in PLANNING only. -/
  | search (planningOnly : Bool)
  /-- The planner's tests at a p_in count (R154, R155, R160, R162, R163, R164). -/
  | deadline
  | approach
  | fire
  | window
  | dueExpiry
  | rollOut
  /-- A splice not yet fired is cancelled (R166, R167). -/
  | cancelSplice (cause : Option FailCause)
  deriving DecidableEq, Repr

/-- A state and what is still to be told to the blocks. -/
abbrev Work := State × List Sig

/-- Nothing follows. -/
def quiet (s : State) : Work := (s, [])

end Sys2Proof.Machine
end

