-- ==== Sys2Proof/Machine/Queue.lean ====
section
/-! DEFINITION. The Run Queue's own operations: reference counts (R37), activation (R47), counting and retirement (R48
to R51), the low mark (R52) and freezing (R53). -/

namespace Sys2Proof.Machine

/-- The queued count: orders that are not active (R43). -/
def queuedCount (q : RunQueue) : Nat := q.orders.length - if q.active then 1 else 0

/-- The order a boundary test examines: the active order is the order at the head (R43, R62). -/
def headOrder (s : State) : Option Order := s.queue.orders.head?

/-- The pattern of the order at the head; without an order, an empty slot. -/
def headPattern (s : State) : Slot :=
  match headOrder s with
  | none => Slot.cleared
  | some o => slotAt s o.pattern

/-- An order that names the slot was added (R37). -/
def addReference (i : Fin 16) (s : State) : State := onSlot i (fun sl => { sl with refs := sl.refs + 1 }) s

/-- An order that names the slot left (R37, R50). -/
def dropReference (i : Fin 16) (s : State) : State := onSlot i (fun sl => { sl with refs := sl.refs - 1 }) s

/-- The queued count has fallen: RUN_QUEUE_LOW at or below the low mark (R52). -/
def queuedFell (s : State) : State :=
  if queuedCount s.queue ≤ s.queue.low then
    raise .runQueueLow (byte1 (queuedCount s.queue) ++ byte1 s.queue.low) s
  else s

/-- The former takes its order: without an active order the head order becomes active (R47). -/
def activate (s : State) : State :=
  if s.queue.active || s.queue.orders.isEmpty then s
  else queuedFell (s.onQueue fun q => { q with active := true })

/-- Retirement of the active order from the head (R51); kind 0 done, 1 cancelled (R25). -/
def retire (kind : Nat) (s : State) : State :=
  match s.queue.orders with
  | [] => s
  | o :: rest =>
    raise .orderDone (byte1 o.id ++ byte1 o.pattern.val ++ bytes2 o.done ++ byte1 kind)
      (dropReference o.pattern (s.onQueue fun q => { q with orders := rest, active := false }))

/-- Change the order at the head. -/
def onHead (f : Order → Order) (s : State) : State :=
  s.onQueue fun q => { q with orders := q.orders.modifyHead f }

/-- A completed panel is counted against the active order, which may retire (R48). -/
def countPanel (s : State) : State :=
  let s1 := onHead (fun o => { o with done := bump16 o.done }) s
  match headOrder s1 with
  | none => s1
  | some o =>
    if o.count ≠ 0 ∧ o.count ≤ o.done then retire 0 s1
    else if o.cancel then retire 1 s1
    else s1

/-- A panel of the active order was closed ABORTED (R49). -/
def countAborted (s : State) : State :=
  match headOrder s with
  | none => s
  | some o => if o.cancel then retire 1 s else s

/-- Every order from the head through `id` frozen, every order behind it not (R53). -/
def freezeThrough (id : Nat) : List Order → List Order
  | [] => []
  | o :: os =>
    if o.id = id then { o with frozen := true } :: os.map fun q => { q with frozen := false }
    else { o with frozen := true } :: freezeThrough id os

/-- The frozen flags the planner's naming gives (R53). -/
def frozenBy (named : Option Nat) (os : List Order) : List Order :=
  match named with
  | none => os.map fun o => { o with frozen := false }
  | some id => freezeThrough id os

/-- The planner names the last order to freeze, or none (R53, R156). -/
def nameFreeze (named : Option Nat) (s : State) : State :=
  (s.onQueue fun q => { q with orders := frozenBy named q.orders }).onPlanner fun p => { p with freeze := named }

/-- An id after another, wrapping from 255 to 1 (R44). -/
def idAfter (n : Nat) : Nat := if 255 ≤ n then 1 else n + 1

/-- The first id from `n` that no order holds, in `fuel` candidates (R44). -/
def freshId (os : List Order) : Nat → Nat → Nat
  | 0, n => n
  | fuel + 1, n => if os.any (fun o => o.id == n) then freshId os fuel (idAfter n) else n

end Sys2Proof.Machine
end

