-- ==== Sys2Proof/Machine/Web.lean ====
section
/-! DEFINITION. The Web Tracker's own operations: marks (R90 to R92), panel records (R93, R94), reports (R95 to R97),
joints (R86 to R89), and the cut scheduler's part in a mark written or reached (R169, R170). -/

namespace Sys2Proof.Machine

def freeRecords (s : State) : Nat := 32 - s.tracker.table.length
def freeMarks (s : State) : Nat := 64 - s.tracker.map.length

/-- A mark at the current p_out, after the newest (R90). -/
def writeMark (kind : MarkKind) (panel : Option (BitVec 16)) (s : State) : State :=
  s.onTracker fun t => { t with map := t.map ++ [⟨kind, t.pOut, panel⟩] }

/-! ### The cut scheduler's marks (R169) -/

/-- The marks after the first PANEL_END mark that `p` accepts, with that mark. -/
def endMark (p : Mark → Bool) : List Mark → Option (Mark × List Mark)
  | [] => none
  | m :: ms => if m.kind = .panelEnd ∧ p m then some (m, ms) else endMark p ms

/-- The first PANEL_START mark. -/
def firstStart (ms : List Mark) : Option Mark := ms.find? fun m => m.kind = .panelStart

/-- The cut point of a target at `e` with the next PANEL_START at `start`, and whether it is the midpoint (R169).  After
reverse motion `start` may lie before `e`, so the distance is signed and half of it is rounded down (log 43). -/
def cutPoint (g : RollGeometry) (e : Pos) (start : Option Pos) : Pos × Bool :=
  match start with
  | some p =>
    if (p - e).toInt < g.cutOffset then (ahead e g.lK + BitVec.ofInt 32 ((p - e).toInt / 2), true)
    else (ahead e (g.lK + g.cutOffset), false)
  | none => (ahead e (g.lK + g.cutOffset), false)

/-- The scheduler takes a PANEL_END mark as its target (R169). -/
def takeTarget (m : Mark) (later : List Mark) (s : State) : State :=
  let c := cutPoint s.roll.geo m.pos ((firstStart later).map Mark.pos)
  s.onCut fun k => { k with target := some ⟨m.pos, m.panel.getD 0⟩, point := some c.1, midpoint := c.2 }

/-- The oldest PANEL_END mark becomes the target, when there is one (R169). -/
def chooseTarget (s : State) : State :=
  match endMark (fun _ => true) s.tracker.map with
  | none => s
  | some (m, later) => takeTarget m later s

/-- A PANEL_END mark was written: a scheduler that waits without a target takes it (R169). -/
def cutSeesEnd (s : State) : State :=
  if s.roll.cut.state = .waiting ∧ s.roll.cut.target = none then chooseTarget s else s

/-- A PANEL_START mark was written: the first one after the target may move the cut point to the midpoint (R169). -/
def cutSeesStart (s : State) : State :=
  match s.roll.cut.target with
  | none => s
  | some t =>
    if s.roll.cut.state = .waiting ∧ s.roll.cut.midpoint = false then
      match endMark (fun m => m.panel = some t.panel) s.tracker.map with
      | none => s
      | some (_, later) =>
        if (later.filter fun m => m.kind = .panelStart).length = 1 then
          let c := cutPoint s.roll.geo t.pos ((firstStart later).map Mark.pos)
          s.onCut fun k => { k with point := some c.1, midpoint := c.2 }
        else s
    else s

/-- The knife fires: output active for the pulse, CUT_DONE with the panel concerned (R170, R171). -/
def fireCut (kind : Nat) (panel : Option (BitVec 16)) (s : State) : State :=
  raise .cutDone
    (posBytes s.tracker.pOut ++ byte1 kind ++ panelBytes (panel.getD 0) ++ byte1 (bit panel.isSome 1))
    (s.onCut fun k => { k with state := .fired, fired := true, pulse := some (s.roll.geo.cutPulse * 10) })

/-- The cut compare at a forward count of p_out (R170). -/
def cutCompare (s : State) : State :=
  match s.roll.cut.point with
  | none => s
  | some c =>
    if s.roll.cut.state = .waiting ∧ reached s.tracker.pOut c then
      fireCut 0 (s.roll.cut.target.map CutTarget.panel) s
    else s

/-! ### Panels -/

/-- A new record with the next panel number (R93) and the order's origin (R64). -/
def newRecord (t : Tracker) (o : Order) : PanelRec :=
  { number := t.nextPanel, orderId := o.id, pattern := o.pattern, recipe := o.recipe, pInStart := t.pIn,
    pOutStart := t.pOut, pInEnd := none, pOutEnd := none, formed := 0, clamped := 0, lateStrokes := 0, joint := false,
    jointUnconfirmed := false, aborted := false, cutThrough := false, judged := 0, doseMin := 0, doseMax := 0,
    peak := 0, verdict := .none, state := .forming }

/-- A record is created and panels begun rises (R93, R98). -/
def beginPanel (o : Order) (s : State) : State :=
  s.onTracker fun t =>
    { t with table := t.table ++ [newRecord t o], nextPanel := t.nextPanel + 1, begun := t.begun + 1 }

/-- A record's panel has ended: end positions given, TRAVELLING (R71, R76, R94). -/
def endedRecord (t : Tracker) (aborted : Bool) (r : PanelRec) : PanelRec :=
  { r with pInEnd := some t.pIn, pOutEnd := some t.pOut, aborted := r.aborted || aborted, state := .travelling }

/-- The panel in formation is closed: PANEL_END mark and end positions (R71, R76). -/
def closePanel (n : BitVec 16) (aborted : Bool) (s : State) : State :=
  cutSeesEnd (onPanel n (endedRecord s.tracker aborted) (writeMark .panelEnd (some n) s))

/-! ### Reports -/

/-- A report: the record with its final verdict (R95). -/
def reportOf (r : PanelRec) : PanelRec :=
  { r with verdict := if r.judged = 0 then .unverified else r.verdict, state := .reported }

/-- The record's report joins the queue and the record leaves the table; REPORT_READY on a queue that was empty
(R95). -/
def queueReport (r : PanelRec) (s : State) : State :=
  let s1 := s.onTracker fun t =>
    { t with table := t.table.eraseP (fun q => q.number == r.number), reports := t.reports ++ [reportOf r] }
  if s.tracker.reports.isEmpty then raise .reportReady (byte1 s1.tracker.reports.length) s1 else s1

/-- The oldest panel in WAITING_REPORT (R96, R97). -/
def oldestWaiting (t : Tracker) : Option PanelRec := t.table.find? fun r => r.state = .waitingReport

/-- The record of a panel. -/
def findPanel (t : Tracker) (n : BitVec 16) : Option PanelRec := t.table.find? fun r => r.number == n

/-- A panel waits for its report (R96). -/
def awaitReport (n : BitVec 16) (s : State) : State :=
  let s1 := onPanel n (fun r => { r with state := .waitingReport }) s
  raise .reportQueueFull (panelBytes (((oldestWaiting s1.tracker).map PanelRec.number).getD n)) s1

/-- A panel's PANEL_END mark has passed the knife (R95, R96). -/
def panelAtKnife (n : BitVec 16) (s : State) : Work :=
  match findPanel s.tracker n with
  | none => quiet s
  | some r =>
    if s.tracker.reports.length < 16 ∧ oldestWaiting s.tracker = none then (queueReport r s, [.drain, .space])
    else quiet (awaitReport n s)

/-- The oldest mark, when it has reached the knife, is removed (R92); then the next is looked at. -/
def passKnife (s : State) : Work :=
  match s.tracker.map with
  | [] => quiet s
  | m :: ms =>
    if reached s.tracker.pOut (ahead m.pos s.roll.geo.lK) then
      let s1 := s.onTracker fun t => { t with map := ms }
      match m.kind, m.panel with
      | .panelEnd, some n =>
        let w := panelAtKnife n s1
        (w.1, w.2 ++ [.space, .search true, .knife])
      | _, _ => (s1, [.space, .search true, .knife])
    else quiet s

/-- One waiting report is made when a place is free (R97). -/
def makeWaitingReport (s : State) : Work :=
  match oldestWaiting s.tracker with
  | none => quiet s
  | some r => if s.tracker.reports.length < 16 then (queueReport r s, [.drain, .space]) else quiet s

/-- A reverse count moves the marks after p_out to it (R91). -/
def marksBack (p : Pos) (ms : List Mark) : List Mark :=
  ms.map fun m => if after m.pos p then { m with pos := p } else m

/-! ### Joints -/

def arrivalOf (g : RollGeometry) (x : Pos) : Pos := ahead x g.lDf
def spanEndOf (g : RollGeometry) (x : Pos) : Pos := ahead x (g.lDf + g.j)

/-- A count of drops that stops at 255. -/
def bump255 (n : Nat) : Nat := min 255 (n + 1)

/-- A JOINT mark, dropped when it would take the last free place of a panel or bridge (R88). -/
def markJoint (s : State) : State :=
  let n := s.tracker.map.length
  if 64 ≤ n ∨ (63 ≤ n ∧ workInFormation s.former) then
    s.onTracker fun t => { t with droppedMarks := bump255 t.droppedMarks }
  else writeMark .joint s.former.panel s

/-- The JOINT marks of the entries that arrive (R88). -/
def markArrivals (g : RollGeometry) (p : Pos) : List Joint → State → State
  | [], s => s
  | e :: es, s => markArrivals g p es (if !e.entering && reached p (arrivalOf g e.x) then markJoint s else s)

/-- An APPROACHING entry whose arrival position is reached is ENTERING (R88). -/
def arrived (g : RollGeometry) (p : Pos) (e : Joint) : Joint :=
  { e with entering := e.entering || reached p (arrivalOf g e.x) }

/-- The flags an ENTERING entry gives a panel (R89). -/
def flaggedBy (es : List Joint) (r : PanelRec) : PanelRec :=
  { r with joint := r.joint || es.any (fun e => e.entering),
           jointUnconfirmed := r.jointUnconfirmed || es.any (fun e => e.entering && e.unconfirmed) }

/-- While an entry is ENTERING and the former is in a pleated step, the panel in formation is flagged (R89). -/
def flagJoints (s : State) : State :=
  if inPleatedStep s.former && s.tracker.joints.any (fun e => e.entering) then
    onFormingPanel (flaggedBy s.tracker.joints) s
  else s

/-- An ENTERING entry has passed into the former (R89). -/
def passed (g : RollGeometry) (p : Pos) (e : Joint) : Bool := e.entering && reached p (spanEndOf g e.x)

/-- Entries arrive in list order (R88). -/
def arriveJoints (s : State) : State :=
  (markArrivals s.roll.geo s.tracker.pIn s.tracker.joints s).onTracker fun t =>
    { t with joints := t.joints.map (arrived s.roll.geo s.tracker.pIn) }

/-- The last flag test, then the removal of the entries whose span has passed (R89). -/
def passJoints (s : State) : Work :=
  let s1 := flagJoints s
  (s1.onTracker fun t => { t with joints := t.joints.filter fun e => !passed s.roll.geo s.tracker.pIn e },
   (s.tracker.joints.filter (passed s.roll.geo s.tracker.pIn)).map fun e => Sig.jointPassed e.x)

/-- An entry joins the joint list, or is dropped (R86, R87). -/
def addJoint (x : Pos) (unconfirmed : Bool) (s : State) : State :=
  s.onTracker fun t =>
    if 4 ≤ t.joints.length then { t with droppedCaptures := bump255 t.droppedCaptures }
    else { t with joints := t.joints ++ [⟨x, unconfirmed, false⟩] }

/-- An unseen joint is tracked; it may arrive and pass at once (R87). -/
def trackJoint (x : Pos) (s : State) : Work := (addJoint x true s, [.joints, .jointsPast])

end Sys2Proof.Machine
end

