-- ==== Sys2Proof/Machine/Heat.lean ====
section
/-! DEFINITION. The Steam Zone Controller, the Dose Tracker and the zone monitors: targets (R108, R109, R134), readings
and monitor acts (R110, R140, R141), the regulation period (R112 to R120), the valve window (R114), trips and releases
(R119), settling (R120, R121), cells and verdicts (R130 to R133), the heat limit (R135) and the drain test (R128). -/

namespace Sys2Proof.Machine

/-! ### Targets -/

/-- T_base + floor(inc × min(v, v_nom) / v_nom) (R134). -/
def compensated (r : Recipe) (z : Fin 4) (v : Nat) : Nat := r.tBase + r.inc.get z * min v r.vNom / r.vNom

/-- A line state in which used zones stand at T_standby (R108). -/
def standby (l : LineState) : Bool := decide (l = .stopped) || decide (l = .tripped)

/-- The table of R108. -/
def targetFor (entry : Option Recipe) (l : LineState) (v : Nat) (z : Fin 4) : Nat :=
  match entry with
  | none => 0
  | some r => if usedZone r z && !standby l then compensated r z v else r.tStandby

/-- The monitor is told of a target change (R139, R142). -/
def monitorNewTarget (k : ZoneMonitor) : ZoneMonitor :=
  { k with blank := k.blankSet, targetChanged := k.targetChanged || decide (k.hold = .target) }

/-- A zone takes a target as a change (R109). -/
def changeTarget (z : Fin 4) (t : Nat) (s : State) : State :=
  (s.onZone z fun q => { q with target := t, blank := 5, settle := 0 }).onZoneMonitor z monitorNewTarget

/-- A target is handed: one equal to the target held changes nothing (R109). -/
def handTarget (t : Nat) (z : Fin 4) (s : State) : State :=
  if (s.zones.get z).target = t then s else changeTarget z t s

/-- The selection is worked out for all four zones and handed (R134). -/
def retarget (s : State) : State :=
  zonesInOrder.foldl (fun a z => handTarget (targetFor (tunnelEntry s) s.sup.line s.sup.vPlanRun z) z a) s

/-! ### Probe tests (R111, R145) -/

/-- The test ends: no zone under test, no test current. -/
def endTest (s : State) : State :=
  s.onMonitor fun m => { m with test := none, testPeriods := 0, testLatest := none }

/-- A zone that leaves SOFT, REGULATING and PURGE ends a test of it with no verdict (R111). -/
def endTestOf (z : Fin 4) (s : State) : State := if s.monitor.test = some z then endTest s else s

/-- A held reading is released (R111). -/
def releaseReading (z : Fin 4) (s : State) : State := s.onZone z fun q => { q with held := false }

/-- SOFT, REGULATING or PURGE: the states a trip, a probe fault or a test finds (R119, R144). -/
def enabledRunning (st : ZoneState) : Bool :=
  match st with
  | .soft | .regulating | .purge => true
  | .off | .tripped | .probeFault => false

/-- A test begins at a zone: its reading is held (R111, R145). -/
def beginTest (z : Fin 4) (s : State) : State :=
  (s.onMonitor fun m => { m with test := some z, testPeriods := 0, testLatest := none }).onZone z
    fun q => { q with held := true }

/-- A zone may be tested (R144). -/
def testable (s : State) (z : Fin 4) : Bool :=
  enabledRunning (s.zones.get z).state && !(s.monitor.zones.get z).probeFlagged

/-- The first testable zone from the cycle position on, wrapping (R144). -/
def nextTest (s : State) : Option (Fin 4) :=
  let p := s.monitor.position
  [p, p + 1, p + 2, p + 3].find? (testable s)

/-! ### The monitor's hand on a zone (R119) -/

/-- A zone stops with valve and vent closed (R102, R105, R119). -/
def stoppedZone (st : ZoneState) (q : Zone) : Zone :=
  { q with state := st, duty := 0, windowDuty := 0, valve := false, soft := 0, hi := 0, purge := 0, settle := 0 }

/-- An over-temperature trip (R119); it ends a test and frees its held reading (R111). -/
def tripZone (z : Fin 4) (s : State) : State :=
  if enabledRunning (s.zones.get z).state then
    releaseReading z (endTestOf z (s.onZone z (stoppedZone .tripped)))
  else s

/-- A probe found open (R119): the reading stays held. -/
def probeFaultZone (z : Fin 4) (s : State) : State :=
  if enabledRunning (s.zones.get z).state then s.onZone z (stoppedZone .probeFault) else s

/-- A zone released to REGULATING (R119). -/
def releasedZone (q : Zone) : Zone := { q with state := .regulating, duty := 0, hi := 0, settle := 0, held := false }

/-- The zone has left TRIPPED: no trip hold (R142). -/
def holdEnded (k : ZoneMonitor) : ZoneMonitor := { k with hold := .none, targetChanged := false }

/-- A release from TRIPPED; a zone in another state does not take it (R119). -/
def releaseTrip (z : Fin 4) (s : State) : State :=
  if (s.zones.get z).state = .tripped then (s.onZone z releasedZone).onZoneMonitor z holdEnded else s

/-- A release from PROBE_FAULT (R119). -/
def releaseProbe (z : Fin 4) (s : State) : State :=
  if (s.zones.get z).state = .probeFault then s.onZone z releasedZone else s

/-- A disable of an enabled zone (R105): OFF, test ended, reading released, trip hold none (R142). -/
def disableZone (z : Fin 4) (s : State) : State :=
  if (s.zones.get z).state = .off then s
  else
    (releaseReading z (endTestOf z (s.onZone z (stoppedZone .off)))).onZoneMonitor z holdEnded

/-- An enable of an OFF zone (R105), told to the monitor, which blanks (R139). -/
def enableZone (z : Fin 4) (s : State) : State :=
  if (s.zones.get z).state = .off then
    (s.onZone z fun q =>
      { q with state := if q.armed then .soft else .regulating, armed := false, soft := 0, hi := 0, purge := 0,
               settle := 0 }).onZoneMonitor z fun k => { k with blank := k.blankSet }
  else s

/-! ### Samples (R110, R140, R141) -/

/-- The converter result goes to the probe check during a test, and is the reading outside one unless the zone is in
PROBE_FAULT (R110, R111). -/
def takeReading (z : Fin 4) (result : Nat) (s : State) : State :=
  if s.monitor.test = some z then
    s.onMonitor fun m => { m with testLatest := some (if openCode result then result else clampedReading result) }
  else if (s.zones.get z).state = .probeFault then s
  else s.onZone z fun q => { q with measured := clampedReading result }

/-- The detail of ZONE_FAULT (R24). -/
def zoneFaultDetail (z : Fin 4) (kind : Nat) (q : Zone) : List Byte :=
  byte1 z.val ++ byte1 kind ++ bytes2 q.measured ++ bytes2 q.target

/-- A monitor acts as its mode gives (R141). -/
def monitorAct (z : Fin 4) (s : State) : State :=
  let q := s.zones.get z
  match (s.monitor.zones.get z).mode with
  | .off => s
  | .warn =>
    raise .zoneFault (zoneFaultDetail z 1 q) (s.onZoneMonitor z fun k => { k with warn := true, acted := true })
  | .retry =>
    raise .zoneFault (zoneFaultDetail z 2 q)
      (tripZone z (s.onZoneMonitor z fun k => { k with hold := .retry, retry := true }))
  | .latch =>
    raise .zoneFault (zoneFaultDetail z 3 q) (tripZone z (s.onZoneMonitor z fun k => { k with hold := .latch }))
  | .target =>
    raise .zoneFault (zoneFaultDetail z 4 q)
      (tripZone z (s.onZoneMonitor z fun k => { k with hold := .target, targetChanged := false }))

/-- The sample counts (R140). -/
def sampleCounts (s : State) (z : Fin 4) : Bool :=
  let k := s.monitor.zones.get z
  decide (k.mode ≠ .off) && enabledRunning (s.zones.get z).state && decide (k.blank = 0) &&
    decide (k.tLimit < (s.zones.get z).measured)

/-- The deglitch counter after a sample (R140). -/
def deglitched (counts : Bool) (k : ZoneMonitor) : ZoneMonitor :=
  if counts then { k with deglitch := if k.deglitchSet ≤ k.deglitch then k.deglitch else k.deglitch + 1 }
  else { k with deglitch := 0, acted := false }

/-- The monitor judges a sample (R140). -/
def monitorSample (z : Fin 4) (s : State) : State :=
  let counts := sampleCounts s z
  let s1 := s.onZoneMonitor z (deglitched counts)
  let k := s1.monitor.zones.get z
  if counts && decide (k.deglitchSet ≤ k.deglitch) && !k.acted then monitorAct z s1 else s1

/-! ### The regulation period (R112, R139, R143, R145) -/

/-- The cap of the state (R107, R113). -/
def dutyCap (q : Zone) : Nat :=
  match q.state with
  | .soft => min q.softDuty q.dutyMax
  | .off | .regulating | .purge | .tripped | .probeFault => q.dutyMax

/-- The regulation step's duty (R113); division truncates toward zero. -/
def steppedDuty (hasRecipe : Bool) (q : Zone) : Nat :=
  if hasRecipe then
    min (dutyCap q) ((q.duty : Int) + (((q.target : Int) - (q.measured : Int)) * (q.gain : Int)).tdiv 16).toNat
  else 0

/-- Steps 1 and 3: blank count, regulation step and soft count (R107, R112).  That the soft count runs on without a tunnel
recipe, so that SOFT may end there although R113 says the zone stays in its state, is the model's reading (log 51). -/
def regulated (entry : Option Recipe) (q : Zone) : Zone :=
  let q1 := { q with blank := q.blank - 1 }
  match q1.state with
  | .soft =>
    let q2 := { q1 with duty := steppedDuty entry.isSome q1 }
    if q2.softTime ≤ q2.soft + 1 then { q2 with state := .regulating, soft := 0, hi := 0 }
    else { q2 with soft := q2.soft + 1 }
  | .regulating => { q1 with duty := steppedDuty entry.isSome q1 }
  | .off | .purge | .tripped | .probeFault => q1

/-- The zone counts as HI with its valve already at 0 (R117). -/
def stillHot (entry : Option Recipe) (q : Zone) : Bool :=
  decide (bandOf entry q = .hi) && decide (q.blank = 0) && decide (q.duty = 0)

/-- Step 4: the HI count and entry to PURGE, or the purge count and its end (R117, R118). -/
def purged (entry : Option Recipe) (q : Zone) : Zone :=
  match q.state with
  | .regulating =>
    if stillHot entry q then
      if q.purgeDelay ≤ q.hi + 1 then
        { q with state := .purge, hi := 0, duty := 0, windowDuty := 0, valve := false, purge := 0 }
      else { q with hi := q.hi + 1 }
    else { q with hi := 0 }
  | .purge =>
    if q.purgeTime ≤ q.purge + 1 then { q with state := .regulating, duty := 0, hi := 0, purge := 0 }
    else { q with purge := q.purge + 1 }
  | .off | .soft | .tripped | .probeFault => q

/-- Step 5: the settle count (R120). -/
def settledCount (entry : Option Recipe) (q : Zone) : Zone :=
  { q with settle := if inBand entry q then min 255 (q.settle + 1) else 0 }

/-- A zone's five steps at a regulation period; ZONE_PURGE at entry to PURGE (R112, R117). -/
def regulateZone (z : Fin 4) (s : State) : State :=
  let e := tunnelEntry s
  let q1 := regulated e (s.zones.get z)
  let q2 := purged e q1
  let s1 := s.onZone z fun _ => settledCount e q2
  if q1.state ≠ .purge ∧ q2.state = .purge then
    raise .zonePurge (byte1 z.val ++ bytes2 q2.measured ++ bytes2 q2.target) s1
  else s1

/-- The band of the tunnel recipe, 0 without one (R143). -/
def tunnelBand (s : State) : Nat := ((tunnelEntry s).map Recipe.band).getD 0

/-- A zone held in RETRY releases itself once cool (R143). -/
def retryRelease (z : Fin 4) (s : State) : State :=
  let k := s.monitor.zones.get z
  if k.hold = .retry ∧ (s.zones.get z).state = .tripped ∧ (s.zones.get z).measured ≤ k.tLimit - tunnelBand s then
    releaseTrip z s
  else s

/-- A test's latest result is judged (R145); with none kept there is no verdict (log 19). -/
def judgeTest (z : Fin 4) (s : State) : State :=
  match s.monitor.testLatest with
  | none => releaseReading z (endTest s)
  | some r =>
    if openCode r then
      raise .probeOpen (byte1 z.val)
        (probeFaultZone z ((endTest s).onZoneMonitor z fun k => { k with probeFlagged := true }))
    else releaseReading z (endTest s)

/-- A test ends at the second regulation period of its zone (R145). -/
def testPeriod (z : Fin 4) (s : State) : State :=
  if s.monitor.test = some z then
    if s.monitor.testPeriods = 0 then s.onMonitor fun m => { m with testPeriods := 1 } else judgeTest z s
  else s

/-- The monitor's blank count falls (R139). -/
def monitorPeriod (z : Fin 4) (s : State) : State := s.onZoneMonitor z fun k => { k with blank := k.blank - 1 }

/-- Everything a zone's regulation period does (R112, R139, R143, R145; log 12). -/
def regulationPeriod (z : Fin 4) (s : State) : State :=
  testPeriod z (retryRelease z (monitorPeriod z (regulateZone z s)))

/-! ### The valve window (R114, R115) -/

/-- A window starts (R114). -/
def windowStart (hasRecipe : Bool) (q : Zone) : Zone :=
  let d := if hasRecipe && (decide (q.state = .soft) || decide (q.state = .regulating)) then q.duty else 0
  { q with windowDuty := d, valve := decide (0 < d), windowTimer := 1000 }

/-- The duties under a cap; a window that has run its new duty closes at once (R115). -/
def cappedDuties (q : Zone) : Zone :=
  let w := min q.windowDuty (dutyCap q)
  { q with duty := min q.duty (dutyCap q), windowDuty := w,
           valve := q.valve && !(decide (w < q.windowDuty) && decide (w ≤ 1000 - q.windowTimer)) }

/-! ### Settling (R120, R121) -/

/-- The settled condition is examined and, when it changed or a report is due, reported (R120). -/
def reportSettled (force : Bool) (s : State) : Work :=
  let v := settledNow s
  if v = s.settledReported ∧ force = false then quiet s
  else
    let s1 := s.withSettled v
    let s2 :=
      if v && !s.settledReported then
        raise .zonesSettled
          (byte1 (orNone255 s.dose.tunnelRecipe) ++
            byte1 (zoneSet fun z => (tunnelEntry s).any (fun r => usedZone r z))) s1
      else s1
    (s2, [.warm, .bridge])

/-! ### The tunnel recipe (R127, R128) -/

/-- A record's fabric is still in the tunnel (R127). -/
def inTunnel (s : State) (r : PanelRec) : Bool :=
  match r.state, r.pOutEnd with
  | .forming, _ => true
  | _, none => true
  | _, some e => !reached s.tracker.pOut (ahead e (drainDistance s.dose.tunnel))

/-- The tunnel holds a panel (R127). -/
def tunnelHoldsPanel (s : State) : Bool := s.tracker.table.any (inTunnel s)

/-- The tunnel is drained of the tunnel recipe (R128). -/
def drained (s : State) : Bool :=
  match s.dose.tunnelRecipe with
  | none => true
  | some t => !(s.tracker.table.any fun r => decide (r.recipe = t) && inTunnel s r)

/-- The drain test; a drained tunnel takes the pending recipe in the same step (R128). -/
def drainTest (s : State) : Work :=
  match s.dose.pendingRecipe with
  | none => quiet s
  | some p =>
    if drained s then
      (retarget (s.onDose fun d => { d with tunnelRecipe := some p, pendingRecipe := none }), [.settled true])
    else quiet s

/-- LINE_START asks for the run's recipe: the tunnel takes it when it holds no panel, and a bridge held at the former
takes it as its target (R127). -/
def recipeForRun (i : Fin 4) (s : State) : State :=
  if tunnelHoldsPanel s then s
  else
    (s.onDose fun d => { d with tunnelRecipe := some i, pendingRecipe := none }).onFormer fun f =>
      { f with bridgeTarget := if bridgeRunning f then some i else f.bridgeTarget }

/-! ### Cells (R129 to R133) -/

/-- The zone a cell index lies in (R126). -/
def cellZone (t : TunnelSettings) (i : Nat) : Fin 4 :=
  if i < t.b1 then 0 else if i < t.b2 then 1 else if i < t.b3 then 2 else 3

/-- One sample's effect on a cell (R131). -/
def dosedCell (r : Recipe) (q : Zone) (c : Cell) : Cell :=
  if q.state = .probeFault then { c with unverified := true }
  else { c with dose := min 16777215 (c.dose + (q.measured - r.tBase)), peak := max c.peak q.measured }

/-- Every occupied cell is sampled at its index (R131). -/
def sampleCells (f : Nat → Cell → Cell) : Nat → List (Option Cell) → List (Option Cell)
  | _, [] => []
  | i, c :: cs => c.map (f i) :: sampleCells f (i + 1) cs

/-- The dose sample (R131). -/
def doseSample (s : State) : State :=
  match tunnelEntry s with
  | none => s
  | some r =>
    if s.sup.hood = .up then s
    else s.onDose fun d =>
      { d with cells := sampleCells (fun i => dosedCell r (s.zones.get (cellZone d.tunnel i))) 0 d.cells }

/-- A cell's verdict against a recipe (R132). -/
def cellVerdict (r : Recipe) (c : Cell) : Verdict :=
  if c.unverified then .unverified
  else if r.tScorch < c.peak then .scorch
  else if r.dMax < c.dose then .over
  else if c.dose < r.dMin then .under
  else .good

/-- The worse of two verdicts by rank (R133). -/
def worse (a b : Verdict) : Verdict := if rankOf a < rankOf b then b else a

/-- A cell folded into its record (R133). -/
def foldCell (v : Verdict) (c : Cell) (r : PanelRec) : PanelRec :=
  { r with verdict := worse r.verdict v,
           doseMin := if r.judged = 0 then c.dose else min r.doseMin c.dose,
           doseMax := if r.judged = 0 then c.dose else max r.doseMax c.dose,
           peak := max r.peak c.peak, judged := bump16 r.judged }

/-- A record covers a web position, whatever its state (R133, R171); that R94's WAITING_REPORT record takes part too is the
model's reading (log 44). -/
def covers (x : Pos) (r : PanelRec) : Bool :=
  reached x r.pOutStart && (match r.pOutEnd with
    | none => true
    | some e => after e x)

/-- A judged cell is offered to the oldest record that covers its start, or dropped (R133). -/
def offerCell (v : Verdict) (c : Cell) (s : State) : State :=
  match s.tracker.table.find? (covers c.start) with
  | none => s
  | some r => onPanel r.number (foldCell v c) s

/-- The cell that leaves the ring is judged; without a tunnel recipe it is dropped (R132). -/
def judgeCell (c : Option Cell) (s : State) : State :=
  match c, tunnelEntry s with
  | some c, some r => offerCell (cellVerdict r c) c s
  | _, _ => s

/-- The ring after a shift at `b` (R130). -/
def shiftedRing (t : TunnelSettings) (b : Pos) (cells : List (Option Cell)) : List (Option Cell) :=
  some ⟨b - dist t.pitch - dist t.lTe, 0, 0, false⟩ :: cells.dropLast

/-- A cell shift when a forward count brings p_out to the next shift position (R130). -/
def shiftCells (s : State) : State :=
  if s.tracker.pOut = s.dose.nextShift then
    let s1 := judgeCell (s.dose.cells.getLast?.getD none) s
    s1.onDose fun d =>
      { d with cells := shiftedRing d.tunnel d.nextShift d.cells, nextShift := ahead d.nextShift d.tunnel.pitch }
  else s

/-! ### The heat limit (R135) -/

/-- One used zone's limit. -/
def zoneLimit (r : Recipe) (z : Fin 4) (q : Zone) : Nat :=
  if q.state = .probeFault then 0 else r.vNom * (q.measured - r.tBase) / r.inc.get z

/-- v_heat (R135). -/
def heatLimit (s : State) : Nat :=
  match tunnelEntry s with
  | none => s.sup.set.vMax
  | some r =>
    match zonesInOrder.filter (usedZone r) with
    | [] => s.sup.set.vMax
    | z :: zs =>
      min 65535 (zs.foldl (fun a y => min a (zoneLimit r y (s.zones.get y))) (zoneLimit r z (s.zones.get z)))

end Sys2Proof.Machine
end

