-- ==== Sys2Proof/Machine/Planner.lean ====
section
/-! DEFINITION. The former's conversions (R59 to R61) and the splice planner (R153 to R167): the layout of the lengths
ahead, the choice of a stretch, scheduling, forcing, approach, fire, confirmation and cancellation. -/

namespace Sys2Proof.Machine

/-! ### Lengths and counts (R59 to R61) -/

/-- A knife step folds to one side (R36). -/
def isKnife (st : StepRec) : Bool := decide (st.kind ≤ 1)

/-- KNIFE_L, KNIFE_R and BOX are pleated; FLAT is not (R56). -/
def isPleated (st : StepRec) : Bool := decide (st.kind ≠ 3)

/-- D + r × G before the clamp (R59). -/
def gradedSum (st : StepRec) (r : Nat) : Int := (st.depth : Int) + (r : Int) * st.grade

/-- A depth brought into 0..300 (R59). -/
def clampDepth (d : Int) : Nat := min 300 d.toNat

/-- The depth of repeat `r` (R59). -/
def strokeDepth (st : StepRec) (r : Nat) : Nat := if isKnife st then clampDepth (gradedSum st r) else st.depth

/-- The sum lay outside 0..300: a clamped pleat (R59). -/
def isClamped (st : StepRec) (r : Nat) : Bool :=
  isKnife st && (decide (gradedSum st r < 0) || decide (300 < gradedSum st r))

/-- The flat length of a stroke at a depth (R59). -/
def flatLength (st : StepRec) (depth : Nat) : Nat := st.width + (if isKnife st then 2 else 4) * depth

/-- The flat length of repeat `r` (R59). -/
def strokeLength (st : StepRec) (r : Nat) : Nat := flatLength st (strokeDepth st r)

/-- The infeed count a length issues (R60). -/
def issuedCount (c : FormerSettings) (carry l : Nat) : Nat := (l * c.inNum + carry) / c.inDen

/-- The carry after it (R60). -/
def carryAfter (c : FormerSettings) (carry l : Nat) : Nat := (l * c.inNum + carry) % c.inDen

/-! ### Roll status (R153 to R155) -/

def exhaustion (r : RollStatus) : Pos := ahead r.pStatus r.remaining
def deadlineOf (g : RollGeometry) (r : RollStatus) : Pos := exhaustion r - dist g.reserve

/-- The estimated remaining (R153).  That it is taken by position alone, so that it is above 0 again on a web that has run
back before the exhaustion position, is the model's reading (log 52). -/
def estimated (p : Pos) (r : RollStatus) : Nat := if reached p (exhaustion r) then 0 else (exhaustion r - p).toNat

/-- ROLL_LOW, once for each status, with the planner IDLE (R154). -/
def testRollLow (s : State) : State :=
  match s.roll.planner.status with
  | none => s
  | some r =>
    if s.roll.planner.state = .idle ∧ r.lowRaised = false ∧ estimated s.tracker.pIn r < s.roll.geo.low then
      raise .rollLow (bytes4 (estimated s.tracker.pIn r))
        (s.onPlanner fun p => { p with status := some { r with lowRaised := true } })
    else s

/-! ### The layout (R158, R159) -/

/-- A choice the search may make. -/
structure Candidate where
  pFire : Pos
  stretch : Stretch
  order : Option Nat
  deriving DecidableEq, Repr

/-- A run of unpleated lengths being laid out: its start, its counts so far, the order of its last length. -/
structure FlatRun where
  start : Pos
  len : Nat
  owner : Nat
  deriving DecidableEq, Repr

/-- The layout so far: where the next length starts, the carry, the run in hand, and the choice once made. -/
structure Lay where
  pos : Pos
  carry : Nat
  run : Option FlatRun
  found : Option Candidate
  deriving DecidableEq, Repr

/-- What the layout reads of the part. -/
structure LayContext where
  set : FormerSettings
  geo : RollGeometry
  pIn : Pos
  deadline : Pos
  slots : List Slot
  deriving DecidableEq, Repr

/-- The fire position of a stretch (R159). -/
def firePosition (g : RollGeometry) (start : Pos) (len : Nat) : Pos := ahead start ((len - g.j) / 2) - dist g.lSf

/-- A fire position the search may choose: at or after p_in + A and at or before p_deadline (R160). -/
def choosable (k : LayContext) (p : Pos) : Bool := reached p (ahead k.pIn k.geo.a) && reached k.deadline p

/-- A run ends: it is a stretch, chosen when it qualifies and its fire position can be chosen (R159, R160). -/
def closeRun (k : LayContext) (l : Lay) : Lay :=
  match l.run with
  | none => l
  | some r =>
    let p := firePosition k.geo r.start r.len
    if k.geo.c ≤ r.len ∧ choosable k p then
      { l with run := none, found := some ⟨p, ⟨r.start, some (ahead r.start r.len)⟩, some r.owner⟩ }
    else { l with run := none }

/-- An unpleated span of `n` counts joins the run in hand or begins one (R158). -/
def laySpanFlat (owner n : Nat) (l : Lay) : Lay :=
  match l.run with
  | none => { l with pos := ahead l.pos n, run := some ⟨l.pos, n, owner⟩ }
  | some r => { l with pos := ahead l.pos n, run := some ⟨r.start, r.len + n, owner⟩ }

/-- A pleated span of `n` counts ends the run in hand; one of count 0 keeps it joined (R158, log 18). -/
def laySpanPleated (k : LayContext) (n : Nat) (l : Lay) : Lay :=
  if n = 0 then l else { closeRun k l with pos := ahead l.pos n }

/-- A length not yet begun: converted with the carry, then laid as a span (R158). -/
def layLength (k : LayContext) (owner : Nat) (pleated : Bool) (len : Nat) (l : Lay) : Lay :=
  let n := issuedCount k.set l.carry len
  let l1 := if pleated then laySpanPleated k n l else laySpanFlat owner n l
  { l1 with carry := carryAfter k.set l.carry len }

/-- `n` repeats of a step from repeat `r` on. -/
def layRepeats (k : LayContext) (owner : Nat) (st : StepRec) : Nat → Nat → Lay → Lay
  | 0, _, l => l
  | n + 1, r, l =>
    if l.found.isSome then l
    else
      layRepeats k owner st n (r + 1)
        (layLength k owner (isPleated st) (if isPleated st then strokeLength st r else st.width) l)

/-- Whole steps in index order. -/
def laySteps (k : LayContext) (owner : Nat) : List StepRec → Lay → Lay
  | [], l => l
  | st :: rest, l => if l.found.isSome then l else laySteps k owner rest (layRepeats k owner st st.rep 0 l)

/-- The tail of a panel. -/
def layTail (k : LayContext) (owner : Nat) (sl : Slot) (l : Lay) : Lay :=
  if l.found.isSome then l else layLength k owner false sl.tail l

/-- A whole panel: lead, steps, tail (R158). -/
def layPanel (k : LayContext) (owner : Nat) (sl : Slot) (l : Lay) : Lay :=
  layTail k owner sl (laySteps k owner sl.steps (layLength k owner false sl.lead l))

/-- `n` panels of one order. -/
def layPanels (k : LayContext) (owner : Nat) (sl : Slot) : Nat → Lay → Lay
  | 0, l => l
  | n + 1, l => if l.found.isSome then l else layPanels k owner sl n (layPanel k owner sl l)

/-- The pattern of an order. -/
def patternOf (k : LayContext) (o : Order) : Slot := k.slots.getD o.pattern.val Slot.cleared

/-- The panels an order still gives, its panel in formation included (R158); a continuous order gives 64. -/
def panelsLeft (o : Order) : Nat := if o.count = 0 then 64 else o.count - o.done

/-- The orders behind one of recipe `recipe`, up to a recipe change or a continuous order (R158). -/
def layOrders (k : LayContext) (recipe : Fin 4) : List Order → Lay → Lay
  | [], l => l
  | o :: os, l =>
    if l.found.isSome ∨ o.recipe ≠ recipe then l
    else
      let l1 := layPanels k o.id (patternOf k o) (panelsLeft o) l
      if o.count = 0 then l1 else layOrders k recipe os l1

/-- The rest of the length in hand, from p_in to its target (R158). -/
def restOf (f : Former) (pIn : Pos) : Nat := if reached pIn f.target then 0 else (f.target - pIn).toNat

/-- The steps after index `i`, then the tail. -/
def layAfterStep (k : LayContext) (owner : Nat) (sl : Slot) (i : Nat) (l : Lay) : Lay :=
  layTail k owner sl (laySteps k owner (sl.steps.drop (i + 1)) l)

/-- The rest of the panel in formation, by the former's state, a HELD former taken in its resume state (R158). -/
def layPresentPanel (k : LayContext) (f : Former) (st : FormerState) (o : Order) (l : Lay) : Lay :=
  let sl := patternOf k o
  let i := f.step.getD 0
  let rec0 := sl.steps.getD i ⟨3, 0, 0, 0, 0, 0⟩
  let rest := restOf f k.pIn
  let strokesFrom (r : Nat) (l : Lay) : Lay :=
    layAfterStep k o.id sl i (layRepeats k o.id rec0 (rec0.rep - r) r l)
  match st with
  | .lead => layTail k o.id sl (laySteps k o.id sl.steps (laySpanFlat o.id rest l))
  | .flat => strokesFrom (f.rep + 1) (laySpanFlat o.id rest l)
  | .tail => laySpanFlat o.id rest l
  | .feed => strokesFrom (f.rep + 1) (laySpanPleated k rest l)
  | .tuck | .press | .retract => strokesFrom (f.rep + 1) l
  | .wait => strokesFrom f.rep l
  | .idle | .bridge | .held => l

/-- Panels of the head order after its panel in formation; none of a cancel-pending order (R158). -/
def panelsBehind (o : Order) : Nat := if o.cancel then 0 else panelsLeft o - 1

/-- The orders behind the head are reached unless it is continuous and not cancel-pending (R158). -/
def endless (o : Order) : Bool := decide (o.count = 0) && !o.cancel

/-- The state a HELD former is taken in (R158); HELD at a boundary is taken as IDLE. -/
def layState (f : Former) : FormerState :=
  match f.state with
  | .held => f.resume.getD .idle
  | st => st

/-- The layout from the former's present state over the queue, and what it finds (R158 to R160). -/
def layout (s : State) (k : LayContext) : Option Candidate :=
  let f := s.former
  let l0 : Lay := ⟨k.pIn, f.cIn, none, none⟩
  match layState f, s.queue.orders with
  | .bridge, _ =>
    let p := ahead k.pIn k.geo.a
    if reached k.deadline p then some ⟨p, ⟨ahead p k.geo.lSf, none⟩, none⟩ else none
  | _, [] => none
  | .idle, o :: os =>
    if s.dose.tunnelRecipe = some o.recipe then (closeRun k (layOrders k o.recipe (o :: os) l0)).found else none
  | st, o :: os =>
    let l1 := layPanels k o.id (patternOf k o) (panelsBehind o) (layPresentPanel k f st o l0)
    let l2 := if endless o then l1 else layOrders k o.recipe os l1
    (if l2.found.isSome then l2 else closeRun k l2).found

/-- The context of a search; without a known roll status there is no deadline and no search (log 31). -/
def layContext (s : State) : Option LayContext :=
  s.roll.planner.status.map fun r =>
    ⟨s.former.set, s.roll.geo, s.tracker.pIn, deadlineOf s.roll.geo r, s.store.slots⟩

/-- What a search finds: a choice, or why there is none (R160). -/
def searchFinds (s : State) : SearchOutcome × Option Candidate :=
  if freeMarks s < 2 then (.noFreeMarks, none)
  else
    match (layContext s).bind (layout s) with
    | none => (.noCandidate, none)
    | some c => (.candidate, some c)

/-! ### The planner's states (R160 to R167) -/

/-- The expected detector position of a splice fired at `p` (R156). -/
def detectorOf (g : RollGeometry) (p : Pos) : Pos := p + dist g.lSf - dist g.lDf

/-- SPLICE_SCHEDULED (R24); kind 0 planned, 1 forced. -/
def announce (p : Pos) (kind : Nat) (s : State) : State := raise .spliceScheduled (posBytes p ++ byte1 kind) s

/-- A choice is taken: SCHEDULED with its fire position, freeze and joint due (R160). -/
def schedule (c : Candidate) (s : State) : State :=
  announce c.pFire 0
    (nameFreeze c.order (s.onPlanner fun p =>
      { p with state := .scheduled, forced := false, pFire := some c.pFire, stretch := some c.stretch,
               jointDue := some (detectorOf s.roll.geo c.pFire) }))

/-- The planned stretch is lost: back to PLANNING (R160). -/
def unschedule (s : State) : State :=
  nameFreeze none (s.onPlanner fun p =>
    { p with state := .planning, pFire := none, stretch := none, jointDue := none })

/-- A forced splice at p_in + A (R161). -/
def forceSplice (s : State) : State :=
  let p := ahead s.tracker.pIn s.roll.geo.a
  announce p 1
    ((nameFreeze none (s.onPlanner fun q =>
      { q with state := .approach, forced := true, pFire := some p, stretch := none,
               jointDue := some (detectorOf s.roll.geo p) })).onSup fun v => { v with spliceLimit := true })

/-- The deadline test in PLANNING (R160). -/
def deadlineTest (s : State) : Work :=
  match s.roll.planner.state, s.roll.planner.status with
  | .planning, some r =>
    if reached s.tracker.pIn (deadlineOf s.roll.geo r - dist s.roll.geo.a) then quiet (forceSplice s) else quiet s
  | _, _ => quiet s

/-- SCHEDULED becomes APPROACH within A of p_fire (R162). -/
def approachTest (s : State) : Work :=
  match s.roll.planner.state, s.roll.planner.pFire with
  | .scheduled, some p =>
    if reached s.tracker.pIn (p - dist s.roll.geo.a) then
      quiet ((s.onPlanner fun q => { q with state := .approach }).onSup fun v => { v with spliceLimit := true })
    else quiet s
  | _, _ => quiet s

/-- The splicer fires when p_in reaches p_fire in APPROACH (R162). -/
def fireTest (s : State) : Work :=
  match s.roll.planner.state, s.roll.planner.pFire with
  | .approach, some p =>
    if reached s.tracker.pIn p ∧ s.sup.line ≠ .tripped then
      quiet (s.onPlanner fun q =>
        { q with state := .fired, firedSinceArm := true, expected := some (detectorOf s.roll.geo p),
                 pulse := some (s.roll.geo.splicePulse * 10) })
    else quiet s
  | _, _ => quiet s

/-- The planner leaves FIRED for IDLE: limit ended, nothing frozen, status unknown (R163). -/
def leaveFired (s : State) : State :=
  testRollLow
    ((nameFreeze none (s.onPlanner fun q =>
      { q with state := .idle, status := none, pFire := none, stretch := none, expected := none })).onSup
        fun v => { v with spliceLimit := false })

/-- SPLICE_FAILED (R24). -/
def announceFailure (cause : Nat) (p : Option Pos) (s : State) : State :=
  raise .spliceFailed (byte1 cause ++ posBytes (p.getD 0)) s

/-- The detection window closes with nothing seen (R163). -/
def windowTest (s : State) : Work :=
  match s.roll.planner.state, s.roll.planner.expected with
  | .fired, some x =>
    if after s.tracker.pIn (ahead x s.roll.geo.wDet) then
      (leaveFired (announceFailure 1 s.roll.planner.pFire (s.onPlanner fun q => { q with jointDue := some x })),
       [.track x])
    else quiet s
  | _, _ => quiet s

/-- A joint due whose far end has entered with no report ends (R164). -/
def dueExpiryTest (s : State) : Work :=
  match s.roll.planner.jointDue with
  | none => quiet s
  | some x =>
    if reached s.tracker.pIn (spanEndOf s.roll.geo x) then
      (s.onPlanner fun q => { q with jointDue := none }, [.bridge])
    else quiet s

/-- The report of a passed joint ends the joint due it names (R164). -/
def jointPassed (x : Pos) (s : State) : Work :=
  if s.roll.planner.jointDue = some x then (s.onPlanner fun q => { q with jointDue := none }, [.bridge])
  else quiet s

/-- ROLL_LOW, then the exhaustion position: ROLL_OUT once, the status unknown (R154, R155).  That ROLL_LOW is tested first,
so that both may be raised at one count, is the model's choice (log 9). -/
def rollOutTest (s : State) : Work :=
  let s1 := testRollLow s
  match s1.roll.planner.status with
  | none => quiet s1
  | some r =>
    if s1.roll.planner.state ≠ .fired ∧ s1.sup.line ≠ .tripped ∧ reached s1.tracker.pIn (exhaustion r) then
      (s1.onPlanner fun q => { q with status := none }, [.trip .rollOut])
    else quiet s1

/-- A capture lies in the detection window (R163). -/
def inWindow (g : RollGeometry) (x expected : Pos) : Bool :=
  reached x (expected - dist g.wDet) && reached (ahead expected g.wDet) x

/-- The detail of SPLICE_DONE: the capture, its signed deviation held to 24 bits, and JOINT_OFFSET (R24, R163). -/
def spliceDoneDetail (tol : Nat) (x expected : Pos) : List Byte :=
  let d := (x - expected).toInt
  posBytes x ++ bytes3 (BitVec.ofInt 24 (max (-8388608) (min 8388607 d))).toNat ++ byte1 (bit (decide (tol < d.natAbs)) 1)

/-- A capture is offered to the planner (R163). -/
def offerCapture (x : Pos) (s : State) : State :=
  match s.roll.planner.state, s.roll.planner.expected with
  | .fired, some e =>
    if inWindow s.roll.geo x e then
      leaveFired
        (raise .spliceDone (spliceDoneDetail s.roll.geo.tol x e)
          (s.onPlanner fun q => { q with jointDue := some x }))
    else s
  | _, _ => s

/-- An active edge of the joint detector (R86). -/
def capture (s : State) : State := addJoint s.tracker.pIn false (offerCapture s.tracker.pIn s)

/-- An armed splice that has not fired (R166, R167). -/
def cancellable (st : PlannerState) : Bool :=
  match st with
  | .planning | .scheduled | .approach => true
  | .idle | .fired => false

/-- The failure causes' codes (R25). -/
def failCode : FailCause → Nat
  | .unseen => 1
  | .trip => 2
  | .masterLost => 3

/-- A splice that has not fired is withdrawn; SPLICE_FAILED when a cause is given (R166, R167). -/
def withdrawSplice (cause : Option FailCause) (s : State) : Work :=
  if cancellable s.roll.planner.state then
    let s1 := nameFreeze none (s.onPlanner fun q =>
      { q with state := .idle, pFire := none, stretch := none, jointDue := none })
    let s2 := s1.onSup fun v => { v with spliceLimit := false }
    let s3 :=
      match cause with
      | none => s2
      | some c => announceFailure (failCode c) s.roll.planner.pFire s2
    (testRollLow s3, [.bridge])
  else quiet s

/-- A search is made and its outcome taken (R160).  A renewed search that finds nothing ends the joint due: the former's
bridge test comes before the deadline test, the model's choice (log 46). -/
def search (planningOnly : Bool) (s : State) : Work :=
  let found := searchFinds s
  let s1 := s.onPlanner fun p => { p with outcome := found.1 }
  match s.roll.planner.state, found.2 with
  | .planning, some c => (schedule c s1, [.approach])
  | .planning, none => (s1, [.deadline])
  | .scheduled, some c =>
    if planningOnly then quiet s
    else if s.roll.planner.pFire = some c.pFire then quiet s1
    else quiet (schedule c s1)
  | .scheduled, none => if planningOnly then quiet s else (unschedule s1, [.bridge, .deadline])
  | .idle, _ => quiet s
  | .approach, _ => quiet s
  | .fired, _ => quiet s

end Sys2Proof.Machine
end

