-- ==== Sys2Proof/Machine/Line.lean ====
section
/-! DEFINITION. The Line Supervisor's own operations: the hood (R177), hold causes (R180), entry to each line state
(R178 to R184), the trip (R183), and the speed update (R185). -/

namespace Sys2Proof.Machine

/-! ### The hood (R177) -/

/-- The hood state the command and its switch give (R177). -/
def derivedHood (down : Bool) (t : Tracker) : HoodState :=
  if down then (if t.hoodDown.level then .down else .lowering)
  else (if t.hoodUp.level then .up else .raising)

/-- The hood timer on becoming a state (R177). -/
def hoodTimerFor (timeout : Nat) (h : HoodState) : Option Nat :=
  match h with
  | .lowering | .raising => some (timeout * 1000)
  | .up | .down => none

/-- v_ref and the output drop when the hood leaves DOWN (R185). -/
def hoodChanged (h : HoodState) (v : Supervisor) : Supervisor :=
  { v with hood := h, hoodTimer := hoodTimerFor v.set.hoodTimeout h,
           vRef := if v.hood = .down then 0 else v.vRef, speedOut := if v.hood = .down then 0 else v.speedOut }

/-- The hood state is derived again; only a change acts (R177). -/
def deriveHood (s : State) : State :=
  let h := derivedHood s.sup.hoodDown s.tracker
  if h = s.sup.hood then s else s.onSup (hoodChanged h)

/-- The hood is commanded down or up (R177).  A command repeated derives the hood state too, the model's choice
(log 48). -/
def commandHood (down : Bool) (s : State) : State := deriveHood (s.onSup fun v => { v with hoodDown := down })

/-! ### Line states -/

/-- v_plan, v_ref and the output drop to 0 at once (R180, R182, R183). -/
def dropSpeed (v : Supervisor) : Supervisor := { v with vPlan := 0, vRef := 0, speedOut := 0 }

/-- The line state changes: LINE_STATE is raised and the zones are handed the new state's targets (R134, R175). -/
def setLine (l : LineState) (s : State) : State :=
  let s1 := s.onSup fun v => { v with prev := v.line, line := l }
  retarget
    (raise .lineState
      (byte1 (lineStateCode l) ++ byte1 (lineStateCode s.sup.line) ++
        byte1 (if l = .holding then causesCode s1.sup.causes else 0)) s1)

/-- The hold causes in a line state: HEAT is cleared on entry to STOPPED, STOPPING and TRIPPED (R180). -/
def withoutHeat (v : Supervisor) : Supervisor := { v with causes := { v.causes with heat := false } }

/-- The set of hold causes becomes `c`; in RUNNING and HOLDING a change raises HOLD (R180). -/
def setCauses (c : HoldCauses) (s : State) : State :=
  if c = s.sup.causes then s
  else
    let s1 := s.onSup fun v => { v with causes := c }
    if s.sup.line = .running ∨ s.sup.line = .holding then raise .hold (byte1 (causesCode c)) s1 else s1

/-- The former withdraws the hold causes it passes (R62, R63, R76). -/
def withdrawCauses (s : State) : State := setCauses { s.sup.causes with starved := false, trackFull := false } s

/-- A former HELD at a boundary goes to IDLE and withdraws its cause (R63, R74). -/
def leaveBoundaryHold (s : State) : State :=
  if s.former.state = .held ∧ (s.former.hold = .starved ∨ s.former.hold = .trackFull) then
    withdrawCauses (s.onFormer fun f => { f with state := .idle, hold := .none, bladeSide := false })
  else s

/-- The hood delay timer on entry to HOLDING (R180). -/
def delayTimerFor (units : Nat) : Option Nat := if units = 0 then none else some (units * 100)

/-- Entry to a line state other than TRIPPED, and what it tells the other blocks (R178 to R184). -/
def enterLine (l : LineState) (s : State) : Work :=
  match l with
  | .stopped =>
    (leaveBoundaryHold
      (commandHood false (setLine .stopped (s.onSup fun v => { withoutHeat (dropSpeed v) with hoodDelayTimer := none }))),
     [.settled false])
  | .warming => (setLine .warming s, [.settled false, .warm])
  | .lowering => (commandHood true (setLine .lowering s), [.settled false, .hoodSeen])
  | .running =>
    (setLine .running s, [.settled false, if noCauses s.sup.causes then .formerRun else .causes])
  | .holding =>
    let s1 := setLine .holding (s.onSup fun v =>
      { dropSpeed v with hoodDelayTimer := delayTimerFor v.set.hoodDelay })
    (if s.sup.set.hoodDelay = 0 then commandHood false s1 else s1, [.settled false])
  | .stopping =>
    (setLine .stopping (s.onSup fun v => { withoutHeat (dropSpeed v) with stopPending := false }),
     [.settled false, .formerPause])
  | .tripped => quiet s

/-- A trip cause reaches the line (R183).  On a line already TRIPPED the p_out of the further TRIP is the present one, the
model's reading (log 47). -/
def tripLine (c : TripCause) (s : State) : Work :=
  let detail := byte1 (tripCauseCode c) ++ byte1 (lineStateCode s.sup.line) ++ posBytes s.tracker.pOut
  if s.sup.line = .tripped then quiet (raise .trip detail s)
  else
    let s1 := s.onSup fun v =>
      { withoutHeat (dropSpeed v) with tripCause := some c, stopPending := false, hoodDelayTimer := none }
    let s2 := commandHood false (setLine .tripped (raise .trip detail s1))
    (s2.onMonitor fun m => { m with breakTimer := none }, [.abort, .cancelSplice (some .trip), .settled false])

/-- LOWERING ends when the hood is DOWN (R179). -/
def hoodSeen (s : State) : Work :=
  if s.sup.line = .lowering ∧ s.sup.hood = .down then enterLine .running s else quiet s

/-- WARMING ends on the settled condition (R179). -/
def warmTest (s : State) : Work :=
  if s.sup.line = .warming ∧ s.settledReported then enterLine .lowering s else quiet s

/-- HOLDING begins when the set of causes is not empty in RUNNING, and ends when it is empty (R180). -/
def causesChanged (s : State) : Work :=
  if s.sup.line = .running ∧ noCauses s.sup.causes = false then enterLine .holding s
  else if s.sup.line = .holding ∧ noCauses s.sup.causes then
    enterLine (if s.sup.hood = .down then .running else .lowering) (s.onSup fun v => { v with hoodDelayTimer := none })
  else quiet s

/-- STOPPING ends when v_ref is 0 and the former is HELD or IDLE (R182). -/
def stopCheck (s : State) : Work :=
  if s.sup.line = .stopping ∧ s.sup.vRef = 0 ∧ (s.former.state = .held ∨ s.former.state = .idle) then
    enterLine .stopped s
  else quiet s

/-- A pending END_OF_PANEL stop acts on a panel end or bridge end (R181). -/
def reportEnd (s : State) : Work := if s.sup.stopPending then enterLine .stopping s else quiet s

/-- A block's effect with more to be told after it. -/
def followedBy (w : Work) (gs : List Sig) : Work := (w.1, w.2 ++ gs)

/-- A stop of mode IMMEDIATE, where the line state takes one (R19, R181). -/
def stopNow (s : State) : Work :=
  match s.sup.line with
  | .stopped | .tripped | .stopping => quiet s
  | .warming | .lowering | .running | .holding => followedBy (enterLine .stopping s) [.stopCheck]

/-! ### The former's speed limit (R72, R73) -/

/-- The deepest graded depth of a step's repeats (R72). -/
def deepest (st : StepRec) : Nat :=
  if isKnife st ∧ 0 < st.grade then strokeDepth st (st.rep - 1) else strokeDepth st 0

/-- A division rounded up. -/
def ceilDiv (a b : Nat) : Nat := (a + (b - 1)) / b

/-- The limit of a pleated step (R72). -/
def stepLimit (c : FormerSettings) (st : StepRec) : Nat :=
  let wOut := st.width * c.outNum / c.outDen
  let flatIn := flatLength st (deepest st) * c.inNum / c.inDen
  let t := ceilDiv flatIn c.f + c.tuck + st.press + c.retractAllow
  max 1 (min 65535 (wOut * 100 / t))

/-- The limit the former passes: the lower of the current and the next step's (R73). -/
def passedLimit (s : State) : Option Nat :=
  if inPleatedStep s.former then
    match s.former.step with
    | none => none
    | some i =>
      match (headPattern s).steps[i]?, (headPattern s).steps[i + 1]? with
      | none, _ => none
      | some a, none => some (stepLimit s.former.set a)
      | some a, some b =>
        some (if isPleated b then min (stepLimit s.former.set a) (stepLimit s.former.set b)
          else stepLimit s.former.set a)
  else none

/-! ### The speed update (R185) -/

/-- The lower of a number and an optional limit. -/
def limitedBy (n : Nat) (l : Option Nat) : Nat :=
  match l with
  | none => n
  | some m => min n m

/-- v_plan_run (R185 step 2). -/
def planRun (v : Supervisor) (g : RollGeometry) : Nat :=
  limitedBy (limitedBy (min v.vReq v.set.vMax) v.formerLimit) (if v.spliceLimit then some g.vSplice else none)

/-- v_ref from v_target (R185 step 7). -/
def nextRef (v : Supervisor) (target : Nat) : Nat :=
  if v.hood ≠ .down then 0 else if target ≤ v.vRef then target else v.vRef + min v.set.accel (target - v.vRef)

/-- The output (R185 step 8). -/
def speedOutput (v : Supervisor) : Nat := v.vRef * 4095 / v.set.vMax

/-- The break timer when v_ref is given (R147). -/
def breakWatch (line : LineState) (vRef : Nat) (m : Monitor) : Monitor :=
  if vRef < m.vBreakMin then { m with breakTimer := none }
  else if m.vBreakMin ≠ 0 ∧ line ≠ .tripped ∧ m.breakTimer = none then
    { m with breakTimer := some (m.breakTime * 100) }
  else m

/-- Steps 5 to 8 (R185). -/
def speedSteps (s : State) : State :=
  let plan := if s.sup.line = .running then s.sup.vPlanRun else 0
  let ref := nextRef s.sup (min plan s.sup.vHeat)
  let s1 := s.onSup fun v => { v with vPlan := plan, vRef := ref, speedOut := speedOutput { v with vRef := ref } }
  s1.onMonitor (breakWatch s1.sup.line ref)

/-- Step 4: v_heat and the HEAT hold cause (R180, R185). -/
def takeHeatLimit (s : State) : State :=
  let s1 := s.onSup fun v => { v with vHeat := heatLimit s }
  if s.sup.line = .running ∨ s.sup.line = .holding then
    setCauses { s1.sup.causes with heat := decide (s1.sup.vHeat = 0) } s1
  else s1

/-- A speed update: steps 1 to 4 and what they cause, after which steps 5 to 8 follow (R185). -/
def speedUpdate (s : State) : Work :=
  let s1 := s.onSup fun v => { v with formerLimit := passedLimit s, updateTimer := 100 }
  let s2 := retarget (s1.onSup fun v => { v with vPlanRun := planRun v s.roll.geo })
  (takeHeatLimit s2, [.settled false, .causes])

end Sys2Proof.Machine
end

