-- ==== Sys2Proof/Machine/Former.lean ====
section
/-! DEFINITION. The Pleat Former's own operations: lengths (R60, R65), strokes (R66 to R70), panels (R62 to R64, R71),
bridges (R77 to R79), stop, resume and abort (R74 to R76). -/

namespace Sys2Proof.Machine

/-! ### Lengths and steps -/

/-- A length begins: converted, its target set (R60). -/
def beginLength (l : Nat) (s : State) : State :=
  s.onFormer fun f =>
    { f with target := ahead s.tracker.pIn (issuedCount f.set f.cIn l), cIn := carryAfter f.set f.cIn l }

/-- The record of the former's step. -/
def currentStep (s : State) : Option StepRec := s.former.step.bind fun i => (headPattern s).steps[i]?

/-- TAIL is entered: no step, no trigger, the tail length begun (R61, R65, R69). -/
def enterTail (s : State) : State :=
  beginLength (headPattern s).tail (s.onFormer fun f => { f with state := .tail, step := none, trigger := none })

/-- A FLAT step is entered with r = 0 (R65, R69). -/
def enterFlat (i : Nat) (st : StepRec) (s : State) : State :=
  beginLength st.width (s.onFormer fun f => { f with state := .flat, step := some i, rep := 0, trigger := none })

/-- The step at index `i` is entered from LEAD or FLAT, or TAIL when there is none (R65, R66). -/
def enterStep (i : Nat) (s : State) : State :=
  match (headPattern s).steps[i]? with
  | none => enterTail s
  | some st =>
    if isPleated st then
      s.onFormer fun f =>
        { f with state := .wait, step := some i, rep := 0, trigger := some s.tracker.pOut, late := false }
    else enterFlat i st s

/-! ### Strokes -/

/-- The blade side output of a step (R56). -/
def sideOf (st : StepRec) : Bool := decide (st.kind = 1)

/-- The FEED timeout of a flat count (R67). -/
def feedTimeoutFor (c : FormerSettings) (n : Nat) : Nat := 2 * ceilDiv n c.f + 50

/-- The trigger advanced by the step's width (R61). -/
def advanceTrigger (st : StepRec) (f : Former) : Former :=
  { f with trigger := f.trigger.map fun t => ahead t ((st.width * f.set.outNum + f.cOut) / f.set.outDen),
           cOut := (st.width * f.set.outNum + f.cOut) % f.set.outDen }

/-- A late-pending stroke is recorded at its start (R70). -/
def recordLate (s : State) : State :=
  if s.former.late then
    raise .strokeLate (panelBytes (s.former.panel.getD 0))
      ((onFormingPanel (fun r => { r with lateStrokes := bump16 r.lateStrokes }) s).onFormer
        fun f => { f with late := false })
  else s

/-- FEED is entered (R59, R60, R66, R67). -/
def enterFeed (st : StepRec) (s : State) : State :=
  let r := s.former.rep
  let n := issuedCount s.former.set s.former.cIn (strokeLength st r)
  let s1 := beginLength (strokeLength st r) s
  let s2 := s1.onFormer fun f =>
    { f with state := .feed, depth := strokeDepth st r, bladeSide := sideOf st,
             timer := some (feedTimeoutFor f.set n) }
  if isClamped st r then onFormingPanel (fun p => { p with clamped := bump16 p.clamped }) s2 else s2

/-- A stroke starts (R66). -/
def startStroke (s : State) : Work :=
  match currentStep s with
  | none => quiet s
  | some st => (enterFeed st (recordLate (s.onFormer (advanceTrigger st))), [.former])

/-- FEED ends at its length target (R67). -/
def endFeed (s : State) : State := s.onFormer fun f => { f with state := .tuck, timer := some f.set.tuck }

/-- The former pauses HELD, keeping its work (R74). -/
def pauseIn (r : FormerState) (f : Former) : Former :=
  { f with state := .held, hold := .stoppedMid, resume := some r }

/-- What the former does after a stroke's RETRACT end (R69). -/
def afterStroke (s : State) : State :=
  match s.former.step, currentStep s with
  | some i, some st =>
    if s.former.rep + 1 < st.rep then s.onFormer fun f => { f with state := .wait, rep := f.rep + 1 }
    else
      match (headPattern s).steps[i + 1]? with
      | none => enterTail s
      | some nx =>
        if isPleated nx then s.onFormer fun f => { f with state := .wait, step := some (i + 1), rep := 0 }
        else enterFlat (i + 1) nx s
  | _, _ => s

/-- RETRACT ends at blade home: the pleat is counted and the former moves on, or pauses while the line stops
(R69, R70, R74). -/
def endRetract (s : State) : Work :=
  match currentStep s with
  | none => quiet s
  | some _ =>
    let s1 := onFormingPanel (fun r => { r with formed := bump16 r.formed })
      (s.onFormer fun f => { f with timer := none })
    let s2 := afterStroke s1
    if s.sup.line = .stopping then (s2.onFormer (pauseIn s2.former.state), [.stopCheck])
    else if s2.former.state = .wait ∧ s2.former.late then startStroke s2
    else (s2, [.former])

/-- The trigger has been reached. -/
def triggerReached (s : State) : Bool := s.former.trigger.any (reached s.tracker.pOut)

/-- A trigger reached during a stroke makes the next one late (R70). -/
def noteLate (s : State) : State :=
  if triggerReached s then s.onFormer fun f => { f with late := true } else s

/-- A trigger reached while the former is HELD before WAIT is kept as reached (R74; log 49). -/
def keepReached (s : State) : State :=
  if s.former.resume = some .wait ∧ triggerReached s then s.onFormer fun f => { f with reachedInStop := true } else s

/-! ### Panel boundaries -/

/-- The former is HELD at a boundary for a reason, which it passes as a cause (R62). -/
def holdFor (h : HoldReason) (s : State) : State :=
  let s1 := s.onFormer fun f => { f with state := .held, hold := h, resume := none }
  setCauses { s1.sup.causes with starved := s1.sup.causes.starved || decide (h = .starved),
                                 trackFull := s1.sup.causes.trackFull || decide (h = .trackFull) } s1

/-- A boundary test that ends in IDLE (R62). -/
def restIdle (s : State) : State :=
  withdrawCauses (s.onFormer fun f => { f with state := .idle, hold := .none, resume := none, bladeSide := false })

/-- A bridge starts (R77). -/
def startBridge (i : Fin 4) (s : State) : State :=
  let s1 := writeMark .bridgeStart none s
  let s2 := s1.onFormer fun f =>
    { f with state := .bridge, hold := .none, resume := none, bladeSide := false, bridgeTarget := some i }
  withdrawCauses (s2.onDose fun d => { d with pendingRecipe := some i })

/-- A panel starts (R64). -/
def startPanel (s : State) : State :=
  let s1 := activate (withdrawCauses s)
  match headOrder s1 with
  | none => s1
  | some o =>
    let n := s1.tracker.nextPanel
    let s2 := cutSeesStart (writeMark .panelStart (some n) (beginPanel o s1))
    beginLength (headPattern s2).lead
      (s2.onFormer fun f =>
        { f with state := .lead, hold := .none, resume := none, panel := some n, step := none })

/-- The boundary test (R62), at a boundary: a point with no panel and no bridge in formation. -/
def boundaryTest (s : State) : Work :=
  if workInFormation s.former then quiet s
  else match headOrder s with
  | none =>
    let s1 := if s.former.state = .held ∧ s.former.hold = .starved then s else raise .runQueueEmpty [] s
    (holdFor .starved s1, [.causes])
  | some o =>
    if s.dose.tunnelRecipe ≠ some o.recipe then
      if freeMarks s < 2 then (holdFor .trackFull s, [.causes])
      else if s.sup.line = .running then (startBridge o.recipe s, [.search false, .drain, .bridge])
      else (restIdle s, [.causes])
    else if freeRecords s = 0 ∨ freeMarks s < 4 then (holdFor .trackFull s, [.causes])
    else if s.sup.line = .running then (startPanel s, [.search true, .former])
    else (restIdle s, [.causes])

/-- A former HELD at a boundary tests again when work or space comes or goes (R63). -/
def spaceTest (s : State) : Work :=
  if s.former.state = .held ∧ (s.former.hold = .starved ∨ s.former.hold = .trackFull) then (s, [.boundary])
  else quiet s

/-- A panel ends: marked, recorded, counted, reported, and the boundary test made in the same step (R71).  That no
ORDER_CANCEL comes between the completion and the next panel's start, though R48 speaks of one, is the model's reading
(log 50). -/
def endPanel (s : State) : Work :=
  match s.former.panel with
  | none => quiet s
  | some n =>
    ((countPanel (closePanel n false s)).onFormer fun f => { f with state := .idle, panel := none, step := none },
     [.reportEnd, .boundary, .stopCheck])

/-- A bridge ends when its recipe is the tunnel's, the zones have settled and no joint is due (R78). -/
def bridgeTest (s : State) : Work :=
  if s.former.state = .bridge ∧ s.former.bridgeTarget.isSome ∧ s.former.bridgeTarget = s.dose.tunnelRecipe ∧
      s.settledReported ∧ s.roll.planner.jointDue = none then
    ((writeMark .bridgeEnd none s).onFormer fun f => { f with state := .idle, bridgeTarget := none },
     [.reportEnd, .boundary, .stopCheck])
  else quiet s

/-- The end of a follow length (R65). -/
def endFollow (s : State) : Work :=
  match s.former.state with
  | .lead => (enterStep 0 s, [.former])
  | .flat =>
    match s.former.step, currentStep s with
    | some i, some st =>
      if s.former.rep + 1 < st.rep then
        (beginLength st.width (s.onFormer fun f => { f with rep := f.rep + 1 }), [.former])
      else (enterStep (i + 1) s, [.former])
    | _, _ => quiet s
  | .tail => endPanel s
  | .idle | .wait | .feed | .tuck | .press | .retract | .bridge | .held => quiet s

/-- The former's own conditions are examined (R65, R66, R67, R69, R70, R74). -/
def formerTest (s : State) : Work :=
  match s.former.state with
  | .lead | .flat | .tail => if reached s.tracker.pIn s.former.target then endFollow s else quiet s
  | .wait => if triggerReached s then startStroke s else quiet s
  | .feed =>
    let s1 := noteLate s
    quiet (if reached s.tracker.pIn s.former.target then endFeed s1 else s1)
  | .tuck | .press => quiet (noteLate s)
  | .retract => if s.tracker.bladeHome.level then endRetract s else quiet (noteLate s)
  | .held => quiet (keepReached s)
  | .idle | .bridge => quiet s

/-! ### Run, pause, abort -/

/-- A former HELD by a stop resumes its work: in WAIT a trigger already reached, before or in the stop, starts its stroke
at once, wherever the web stands since (R74, R75). -/
def resumeWork (s : State) : Work :=
  let f := s.former
  let u := s.onFormer fun f =>
    { f with state := f.resume.getD .idle, resume := none, hold := .none, reachedInStop := false }
  if f.resume = some .wait ∧ (f.late || f.reachedInStop) = true then startStroke u else (u, [.former, .bridge])

/-- The line entered RUNNING (R63, R75). -/
def formerRun (s : State) : Work :=
  if s.sup.line ≠ .running then quiet s
  else match s.former.state with
  | .idle => (s, [.boundary])
  | .held =>
    if s.former.hold = .stoppedMid then resumeWork s else quiet s
  | .lead | .wait | .feed | .tuck | .press | .retract | .flat | .tail | .bridge => quiet s

/-- The line entered STOPPING (R74). -/
def formerPause (s : State) : Work :=
  match s.former.state with
  | .wait | .lead | .flat | .tail | .bridge => quiet (s.onFormer (pauseIn s.former.state))
  | .held => quiet (leaveBoundaryHold s)
  | .idle | .feed | .tuck | .press | .retract => quiet s

/-- A trip closes the panel in formation ABORTED (R49, R76). -/
def abortPanel (s : State) : State :=
  match s.former.panel with
  | none => s
  | some n => countAborted (closePanel n true s)

/-- A trip ends a bridge, and the Dose Tracker is handed none (R79, R128). -/
def abortBridge (s : State) : State :=
  if bridgeRunning s.former then
    (writeMark .bridgeEnd none s).onDose fun d => { d with pendingRecipe := none }
  else s

/-- The line entered TRIPPED (R76). -/
def formerAbort (s : State) : Work :=
  let home := s.tracker.bladeHome.level
  quiet (withdrawCauses ((abortBridge (abortPanel s)).onFormer fun f =>
    { f with state := .idle, resume := none, hold := .none, panel := none, step := none, trigger := none,
             late := false, reachedInStop := false, timer := none, bridgeTarget := none, bladeSide := false,
             retractAfterTrip := f.retractAfterTrip || !home }))

end Sys2Proof.Machine
end

