-- ==== Sys2Proof/Machine/Cascade.lean ====
section
/-! DEFINITION. One step's cascade: each signal is taken by the block it is for, and all that follows from it is taken
before the next (section 3 of 00_scope.md; log 8). -/

namespace Sys2Proof.Machine

/-- The block a signal is for takes it. -/
def handle (g : Sig) (s : State) : Work :=
  match g with
  | .trip c => tripLine c s
  | .hoodSeen => hoodSeen s
  | .warm => warmTest s
  | .causes => causesChanged s
  | .stopCheck => stopCheck s
  | .reportEnd => reportEnd s
  | .settled force => reportSettled force s
  | .drain => drainTest s
  | .former => formerTest s
  | .boundary => boundaryTest s
  | .space => spaceTest s
  | .formerRun => formerRun s
  | .formerPause => formerPause s
  | .abort => formerAbort s
  | .bridge => bridgeTest s
  | .joints => quiet (arriveJoints s)
  | .jointsPast => passJoints s
  | .track x => trackJoint x s
  | .jointPassed x => jointPassed x s
  | .knife => passKnife s
  | .search planningOnly => search planningOnly s
  | .deadline => deadlineTest s
  | .approach => approachTest s
  | .fire => fireTest s
  | .window => windowTest s
  | .dueExpiry => dueExpiryTest s
  | .rollOut => rollOutTest s
  | .cancelSplice cause => withdrawSplice cause s

/-- Signals are taken depth first; after each, an ENTERING joint flags the panel of a former that stands in a pleated
step (R89). -/
def cascade : Nat → List Sig → State → State
  | 0, _, s => s
  | _, [], s => s
  | n + 1, g :: rest, s =>
    let w := handle g s
    cascade n (w.2 ++ rest) (flagJoints w.1)

/-- More signals than one step can give (log 8). -/
def cascadeFuel : Nat := 1048576

/-- A block's own effect, and all that follows from it in the same step. -/
def settle (w : Work) : State := cascade cascadeFuel w.2 (flagJoints w.1)

end Sys2Proof.Machine
end

