-- ==== Sys2Proof/Machine/Views.lean ====
section
/-! DEFINITION. The eight views of STATUS_READ (R13) and their commands: LINE (R188), ZONE (R123), FORMER (R80), QUEUE
(R54), PANEL and MAP (R101), SPLICE (R174), PORT (R14). -/

namespace Sys2Proof.Machine

/-- What a command's meaning answers. -/
abbrev Result := Host.Outcome State Fault Refusal

/-- LINE view (section 10.10). -/
def lineViewBytes (s : State) : List Byte :=
  let v := s.sup
  byte1 (lineStateCode v.line) ++ byte1 (lineStateCode v.prev) ++ byte1 (causesCode v.causes) ++
  byte1 ((v.tripCause.map tripCauseCode).getD 0) ++ byte1 (bit v.stopPending 2) ++ byte1 (hoodStateCode v.hood) ++
  byte1 (lineFlags s) ++ bytes2 v.vReq ++ bytes2 v.set.vMax ++ bytes2 v.vPlan ++ bytes2 v.vPlanRun ++
  bytes2 v.vHeat ++ bytes2 v.vRef ++ bytes2 v.speedOut ++ bytes2 (v.formerLimit.getD 0) ++
  byte1 (orNone255 s.dose.tunnelRecipe) ++ byte1 (orNone255 s.dose.pendingRecipe) ++
  byte1 (monitorFlags s.monitor 0) ++ byte1 (monitorFlags s.monitor 1) ++ byte1 (monitorFlags s.monitor 2) ++
  byte1 (monitorFlags s.monitor 3) ++ bytes2 v.set.accel

/-- ZONE view (section 6.10). -/
def zoneViewBytes (s : State) (z : Fin 4) : List Byte :=
  let e := tunnelEntry s
  let q := s.zones.get z
  byte1 z.val ++ byte1 (zoneStateCode q.state) ++ byte1 (zoneFlags e q) ++ byte1 (bandStatusCode (bandOf e q)) ++
  bytes2 q.target ++ bytes2 q.measured ++ bytes2 q.duty ++ bytes2 q.windowDuty ++ byte1 q.gain ++
  bytes2 q.dutyMax ++ bytes2 q.softDuty ++ byte1 q.softTime ++ byte1 q.purgeDelay ++ byte1 q.purgeTime ++
  byte1 q.blank ++ byte1 q.soft ++ byte1 q.hi ++ byte1 q.purge ++ byte1 q.settle

/-- FORMER view (section 4.10). -/
def formerViewBytes (s : State) : List Byte :=
  let f := s.former
  byte1 (formerStateCode f.state) ++ byte1 ((f.resume.map formerStateCode).getD 255) ++
  byte1 (holdReasonCode f.hold) ++ byte1 (f.step.getD 255) ++ byte1 f.rep ++ bytes2 f.depth ++ posBytes f.target ++
  posBytes (f.trigger.getD 0) ++ bytes2 f.cIn ++ bytes2 f.cOut ++ bytes2 ((passedLimit s).getD 0) ++
  panelBytes (f.panel.getD 0) ++ byte1 (formerFlags f)

/-- One order of the QUEUE view. -/
def orderBytes (active : Bool) (o : Order) : List Byte :=
  byte1 o.id ++ byte1 o.pattern.val ++ bytes2 o.count ++ bytes2 o.done ++ byte1 (orderAttributes o active)

/-- The orders of the QUEUE view; only the head may be active. -/
def ordersBytes (active : Bool) : List Order → List Byte
  | [] => []
  | o :: os => orderBytes active o ++ ordersBytes false os

/-- Steps received of the open load (R54). -/
def stepsReceived (s : State) (i : Fin 16) : Nat := (slotAt s i).steps.length

/-- QUEUE view (section 3.9). -/
def queueViewBytes (s : State) : List Byte :=
  let q := s.queue
  let k := q.orders.length
  match s.store.load with
  | none =>
    byte1 k ++ byte1 (queuedCount q) ++ byte1 q.low ++ byte1 255 ++ ordersBytes q.active q.orders
  | some i =>
    byte1 k ++ byte1 (queuedCount q) ++ byte1 (if k = 8 then stepsReceived s i else q.low) ++ byte1 i.val ++
    ordersBytes q.active q.orders ++ (if k < 8 then byte1 (stepsReceived s i) else [])

/-- The panel record layout (section 5.9). -/
def recordBytes (r : PanelRec) : List Byte :=
  panelBytes r.number ++ byte1 r.orderId ++ byte1 r.pattern.val ++ byte1 r.recipe.val ++
  byte1 (panelStateCode r.state) ++ byte1 (panelFlags r) ++ posBytes r.pInStart ++ posBytes r.pOutStart ++
  posBytes (r.pInEnd.getD 0) ++ posBytes (r.pOutEnd.getD 0) ++ bytes2 r.formed ++ bytes2 r.clamped ++
  bytes2 r.lateStrokes ++ bytes2 r.judged ++ bytes3 r.doseMin ++ bytes3 r.doseMax ++ bytes2 r.peak ++
  byte1 (rankOf r.verdict)

/-- One mark of the MAP view. -/
def markBytes (m : Mark) : List Byte :=
  byte1 (markKindCode m.kind + bit m.panel.isSome 128) ++ posBytes m.pos ++ panelBytes (m.panel.getD 0)

/-- MAP view (section 5.9): the oldest four marks at most. -/
def mapViewBytes (s : State) : List Byte :=
  let t := s.tracker
  posBytes t.pIn ++ posBytes t.pOut ++ posBytes t.high ++ byte1 t.map.length ++ byte1 t.table.length ++
  byte1 t.reports.length ++ byte1 t.joints.length ++ posBytes t.begun ++ posBytes t.taken ++
  byte1 t.droppedMarks ++ byte1 t.droppedCaptures ++ byte1 (filteredLevels s) ++
  (t.map.take 4).flatMap markBytes

/-- Bytes 3..18 of the SPLICE view: the roll status; bytes 7..14 without one are free values (log 4). -/
def rollStatusBytes (s : State) : List Byte :=
  match s.roll.planner.status with
  | some r =>
    posBytes r.pStatus ++ bytes4 r.remaining ++ posBytes (deadlineOf s.roll.geo r) ++
      bytes4 (estimated s.tracker.pIn r)
  | none =>
    bytes4 0 ++ posBytes (Config.remainingWhenUnknown s.free) ++ posBytes (Config.deadlineWhenUnknown s.free) ++
      bytes4 0

/-- SPLICE view (section 9.8). -/
def spliceViewBytes (s : State) : List Byte :=
  let p := s.roll.planner
  let c := s.roll.cut
  byte1 (plannerStateCode p.state) ++ byte1 (cutStateCode c.state) ++ byte1 (spliceFlags s) ++ rollStatusBytes s ++
  posBytes (p.pFire.getD 0) ++ posBytes ((p.stretch.map Stretch.s).getD 0) ++
  posBytes ((p.stretch.bind Stretch.e).getD 0) ++ byte1 (p.freeze.getD 0) ++
  posBytes (if p.state = .fired then p.expected.getD 0 else 0) ++
  posBytes (p.jointDue.getD 0) ++ posBytes (c.point.getD 0) ++ panelBytes ((c.target.map CutTarget.panel).getD 0) ++
  byte1 (cutFlags s.roll) ++ byte1 (searchOutcomeCode p.outcome)

/-- A view that read free values moves their counter on (log 4). -/
def afterSpliceView (s : State) : State := if s.roll.planner.status = none then s.nextFree else s

/-- One port's five bytes of the PORT view. -/
def portBytes (q : PortState) : List Byte :=
  byte1 q.timeout ++ byte1 (bit q.lost 1) ++ bytes2 q.frameCount.toNat ++ byte1 q.badCount

/-- PORT view (section 1.3). -/
def portViewBytes (asking : Port) (s : State) : List Byte :=
  byte1 (portNumber asking) ++ portBytes s.ports.line ++ portBytes s.ports.pattern ++ portBytes s.ports.roll

/-- STATUS_READ (R13). -/
def statusRead (p : Port) (pl : List Byte) (s : State) : State × Answer :=
  match u8 pl 0 with
  | 0 => okWith (lineViewBytes s) s
  | 1 => if 3 < u16 pl 1 then refuse .badValue s else okWith (zoneViewBytes s (fin4 (u16 pl 1))) s
  | 2 => okWith (formerViewBytes s) s
  | 3 => okWith (queueViewBytes s) s
  | 4 =>
    match findPanel s.tracker (BitVec.ofNat 16 (u16 pl 1)) with
    | none => refuse .notFound s
    | some r => okWith (recordBytes r) s
  | 5 => okWith (mapViewBytes s) s
  | 6 => okWith (spliceViewBytes s) (afterSpliceView s)
  | 7 => okWith (portViewBytes p s) s
  | _ => refuse .badValue s

/-- A STATUS_READ transaction (authority any, n = 3). -/
def readView (f : Frame) (s : State) : State := serve 0x02 none (exactly 3) statusRead f s

/-- LINE_VIEW (R188). -/
def execLineView (f : Frame) (s : State) : Result := .next (readView f s)
/-- ZONE_VIEW (R123). -/
def execZoneView (f : Frame) (s : State) : Result := .next (readView f s)
/-- FORMER_VIEW (R80). -/
def execFormerView (f : Frame) (s : State) : Result := .next (readView f s)
/-- QUEUE_VIEW (R54). -/
def execQueueView (f : Frame) (s : State) : Result := .next (readView f s)
/-- PANEL_VIEW (R101). -/
def execPanelView (f : Frame) (s : State) : Result := .next (readView f s)
/-- MAP_VIEW (R101). -/
def execMapView (f : Frame) (s : State) : Result := .next (readView f s)
/-- SPLICE_VIEW (R174). -/
def execSpliceView (f : Frame) (s : State) : Result := .next (readView f s)
/-- PORT_VIEW (R14). -/
def execPortView (f : Frame) (s : State) : Result := .next (readView f s)

end Sys2Proof.Machine
end

