-- ==== Sys2Proof/Machine/Events.lean ====
section
/-! DEFINITION. Commands of the Event Router: EVENT_TAKE (R29, R30), ROUTE_SET (R32), FLOOR_SET (R33). -/

namespace Sys2Proof.Machine

/-- The better of two pending kinds: the higher level, the lower number among equals (R29). -/
def preferred (best : Option Nat) (records : List EventRecord) (i : Nat) : Option Nat :=
  match records[i]? with
  | none => best
  | some e =>
    if e.flag then
      match best with
      | none => some i
      | some b => if ((records[b]?).map EventRecord.level).getD 0 < e.level then some i else best
    else best

/-- The kind EVENT_TAKE selects (R29). -/
def selectedKind (records : List EventRecord) : Option Nat :=
  (List.range records.length).foldl (fun best i => preferred best records i) none

/-- How many kinds are pending. -/
def pendingKinds (records : List EventRecord) : Nat := (records.filter fun e => e.flag).length

/-- A record that was taken or discarded keeps its level only (R30, R32). -/
def clearedRecord (e : EventRecord) : EventRecord := EventRecord.clear e.level

/-- Change a port's router state. -/
def onRouterPort (p : Port) (f : RouterPort → RouterPort) (s : State) : State :=
  s.onRouter fun t => t.set p (f (t.get p))

/-- EVENT_TAKE at its port (R29, R30). -/
def eventTake (p : Port) (_ : List Byte) (s : State) : State × Answer :=
  let records := (s.router.get p).records
  match selectedKind records with
  | none => (s, ⟨.empty, []⟩)
  | some i =>
    let e := records.getD i (EventRecord.clear 0)
    let s1 := onRouterPort p (fun r => { r with records := r.records.modify i clearedRecord }) s
    okWith
      (byte1 i ++ byte1 e.level ++ byte1 e.count ++ byte1 (detailLengths.getD i 0) ++ e.detail ++
        byte1 (pendingKinds (s1.router.get p).records)) s1

/-- EVENT_TAKE (R29, R30). -/
def execEventTake (f : Frame) (s : State) : Result := .next (serve 0x03 none (exactly 0) eventTake f s)

/-- A record under a new level; level 0 discards what was pending (R32). -/
def routedRecord (level : Nat) (e : EventRecord) : EventRecord :=
  if level = 0 then EventRecord.clear 0 else { e with level := level }

/-- ROUTE_SET at its port (R32). -/
def routeSet (p : Port) (pl : List Byte) (s : State) : State × Answer :=
  if 19 < u8 pl 0 ∨ 3 < u8 pl 1 then refuse .badValue s
  else
    let before := ((s.router.get p).records.getD (u8 pl 0) (EventRecord.clear 0)).level
    okWith (byte1 before)
      (onRouterPort p (fun r => { r with records := r.records.modify (u8 pl 0) (routedRecord (u8 pl 1)) }) s)

/-- ROUTE_SET (R32). -/
def execRouteSet (f : Frame) (s : State) : Result := .next (serve 0x04 none (exactly 2) routeSet f s)

/-- FLOOR_SET at its port (R33). -/
def floorSet (p : Port) (pl : List Byte) (s : State) : State × Answer :=
  if 3 < u8 pl 0 then refuse .badValue s
  else okWith (byte1 (s.router.get p).floor) (onRouterPort p (fun r => { r with floor := u8 pl 0 }) s)

/-- FLOOR_SET (R33). -/
def execFloorSet (f : Frame) (s : State) : Result := .next (serve 0x05 none (exactly 1) floorSet f s)

end Sys2Proof.Machine
end

