-- ==== Sys2Proof/Machine/LineCommands.lean ====
section
/-! DEFINITION. Commands of the Line Supervisor: LINE_START (R178), LINE_STOP (R181), LINE_RESET (R187), SPEED_SET and
MOTION_SET (R176), the speed update (R185) and the hood's timers (R177, R180). -/

namespace Sys2Proof.Machine

/-- A zone stands TRIPPED or in PROBE_FAULT (R178). -/
def zoneFaulted (q : Zone) : Bool := decide (q.state = .tripped) || decide (q.state = .probeFault)

/-- Checks 1, 3, 4 and 5 of R178. -/
def mayStart (s : State) : Bool :=
  decide (s.sup.line = .stopped) && !s.former.retractAfterTrip &&
    !(zonesInOrder.any fun z => zoneFaulted (s.zones.get z)) && !s.monitor.estop

/-- LINE_START (R178); check 2 is the order at the head. -/
def lineStart (_ : Port) (_ : List Byte) (s : State) : State × Answer :=
  match headOrder s with
  | none => refuse .wrongState s
  | some o =>
    if mayStart s then
      let s1 := settle (enterLine .warming (recipeForRun o.recipe s))
      okWith (byte1 (orNone255 s1.dose.tunnelRecipe)) s1
    else refuse .wrongState s

/-- LINE_START (R178). -/
def execLineStart (f : Frame) (s : State) : Result := .next (serve 0x10 (some .line) (exactly 0) lineStart f s)

/-- LINE_STOP of a mode (R181). -/
def stopLine (endOfPanel : Bool) (s : State) : State × Answer :=
  match s.sup.line with
  | .stopped | .tripped => refuse .wrongState s
  | .stopping => okWith [] s
  | .warming | .lowering => okWith [] (settle (stopNow s))
  | .running | .holding =>
    if endOfPanel && workInFormation s.former then
      (s.onSup fun v => { v with stopPending := true }, ⟨.accepted, []⟩)
    else okWith [] (settle (stopNow s))

/-- LINE_STOP (R181). -/
def lineStop (_ : Port) (pl : List Byte) (s : State) : State × Answer :=
  if 1 < u8 pl 0 then refuse .badValue s else stopLine (decide (u8 pl 0 = 1)) s

/-- LINE_STOP_IMMEDIATE (R181). -/
def execLineStopImmediate (f : Frame) (s : State) : Result :=
  .next (serve 0x11 (some .line) (exactly 1) lineStop f s)

/-- LINE_STOP_END_OF_PANEL (R181). -/
def execLineStopEndOfPanel (f : Frame) (s : State) : Result :=
  .next (serve 0x11 (some .line) (exactly 1) lineStop f s)

/-! ### Line reset (R187) -/

/-- The Web Tracker's line reset (R100). -/
def resetTracker (t : Tracker) : Tracker :=
  { t with pIn := 0, pOut := 0, high := 0, joints := [], droppedCaptures := 0, droppedMarks := 0, map := [],
           table := [], nextPanel := 0, reports := [], begun := 0, taken := 0 }

/-- The Dose Tracker's line reset (R136). -/
def resetDose (d : Dose) : Dose :=
  { d with tunnelRecipe := none, pendingRecipe := none, cells := List.replicate d.tunnel.n none,
           nextShift := dist d.tunnel.pitch }

/-- A zone's duties and valve with the tunnel recipe become none (R115, R122). -/
def shutZone (q : Zone) : Zone := { q with duty := 0, windowDuty := 0, valve := false }

/-- The zones' line reset: target 0 as a change, valve closed, the settled condition false (R122). -/
def resetZones (s : State) : State :=
  (zonesInOrder.foldl (fun a z => (changeTarget z 0 a).onZone z shutZone) s).withSettled false

/-- The Supervisor's line reset (R175). -/
def resetSupervisor (v : Supervisor) : Supervisor :=
  { dropSpeed v with stopPending := false, causes := ⟨false, false, false⟩, formerLimit := none, spliceLimit := false }

/-- Every block at its line-reset values (R23, R35, R55, R57, R100, R122, R136, R151, R173, R187). -/
def lineResetState (s : State) : State :=
  ((((((((s.onTracker resetTracker).onQueue fun q => { q with orders := [], active := false }).onStore fun st =>
    { st with slots := st.slots.map fun sl => { sl with refs := 0 } }).onDose resetDose).onFormer fun f =>
    Former.atRest f.set).onPlanner fun _ => Planner.reset).onCut fun _ => Cut.reset).onSup resetSupervisor).onMonitor
    fun m => { m with breakTimer := none }

/-- Panels discarded by a line reset (R100). -/
def panelsDiscarded (s : State) : Nat := s.tracker.table.length + s.tracker.reports.length

/-- LINE_RESET (R187). -/
def lineReset (_ : Port) (_ : List Byte) (s : State) : State × Answer :=
  if standby s.sup.line then
    okWith (bytes2 (panelsDiscarded s))
      (raise .lineResetDone (bytes2 (panelsDiscarded s)) (resetZones (lineResetState s)))
  else refuse .wrongState s

/-- LINE_RESET (R187). -/
def execLineReset (f : Frame) (s : State) : Result := .next (serve 0x12 (some .line) (exactly 0) lineReset f s)

/-! ### Settings -/

/-- SPEED_SET (R176). -/
def speedSet (_ : Port) (pl : List Byte) (s : State) : State × Answer :=
  let v := min (u16 pl 0) s.sup.set.vMax
  (s.onSup fun u => { u with vReq := v }, ⟨if u16 pl 0 ≤ s.sup.set.vMax then .ok else .clamped, bytes2 v⟩)

/-- SPEED_SET (R176). -/
def execSpeedSet (f : Frame) (s : State) : Result := .next (serve 0x13 (some .line) (exactly 2) speedSet f s)

/-- MOTION_SET (R176).  BAD_VALUE goes before WRONG_STATE (log 45). -/
def motionSet (_ : Port) (pl : List Byte) (s : State) : State × Answer :=
  let m := motionSettingsOf pl
  if motionSettingsOk pl m = false then refuse .badValue s
  else if m.vMax ≠ s.sup.set.vMax ∧ standby s.sup.line = false then refuse .wrongState s
  else okWith [] (s.onSup fun v => { v with set := m })

/-- MOTION_SET (R176). -/
def execMotionSet (f : Frame) (s : State) : Result := .next (serve 0x1A (some .line) (exactly 7) motionSet f s)

/-! ### Timers -/

/-- SPEED_UPDATE (R185). -/
def execSpeedUpdate (s : State) : Result := .next (speedSteps (settle (speedUpdate s)))

/-- HOOD_TIMER_EXPIRY (R177): HOOD_FAULT in every line state.  A stopped timer has no expiry (log 6). -/
def execHoodTimerExpiry (s : State) : Result :=
  .next
    (if running s.sup.hoodTimer then
      settle (s.onSup fun v => { v with hoodTimer := none }, [.trip .hoodFault])
    else s)

/-- HOOD_DELAY_EXPIRY (R180, R182): the hood is commanded up.  A stopped timer has no expiry (log 6). -/
def execHoodDelayExpiry (s : State) : Result :=
  .next
    (if running s.sup.hoodDelayTimer then
      settle (commandHood false (s.onSup fun v => { v with hoodDelayTimer := none }), [])
    else s)

end Sys2Proof.Machine
end

