-- ==== Sys2Proof/Machine/ZoneCommands.lean ====
section
/-! DEFINITION. Commands of the Steam Zone Controller (ZONE_SET and its rows, R104 to R106; the zone timers, R110,
R112, R114) and of the Dose Tracker (RECIPE_SET R125, TUNNEL_SET R126, the dose sample R131). -/

namespace Sys2Proof.Machine

/-- Arming is taken only while the zone is OFF (R106). -/
def armZone (q : Zone) : Zone := { q with armed := q.armed || decide (q.state = .off) }

/-- The four steps of a taken ZONE_SET (R104). -/
def applyZoneSet (pl : List Byte) (s : State) : State :=
  let z := fin4 (u8 pl 0)
  let s1 := s.onZone z fun q => cappedDuties (zoneSettings pl q)
  let s2 := if u8 pl 1 = 0 then disableZone z s1 else s1
  let s3 := if u8 pl 2 = 1 then s2.onZone z armZone else s2
  if u8 pl 1 = 1 then enableZone z s3 else s3

/-- ZONE_SET (R104). -/
def zoneSetRequest (_ : Port) (pl : List Byte) (s : State) : State × Answer :=
  if zoneRequestOk pl = false then refuse .badValue s
  else
    let s1 := settle (applyZoneSet pl s, [.settled false])
    let q := s1.zones.get (fin4 (u8 pl 0))
    okWith (byte1 (u8 pl 0) ++ byte1 (zoneStateCode q.state) ++ byte1 (bit q.armed 1)) s1

/-- A ZONE_SET transaction. -/
def serveZoneSet (f : Frame) (s : State) : State := serve 0x15 (some .line) (exactly 11) zoneSetRequest f s

/-- ZONE_SET (R104). -/
def execZoneSet (f : Frame) (s : State) : Result := .next (serveZoneSet f s)
/-- ZONE_DISABLE (R105). -/
def execZoneDisable (f : Frame) (s : State) : Result := .next (serveZoneSet f s)
/-- ZONE_ARM (R106). -/
def execZoneArm (f : Frame) (s : State) : Result := .next (serveZoneSet f s)
/-- ZONE_ENABLE (R105). -/
def execZoneEnable (f : Frame) (s : State) : Result := .next (serveZoneSet f s)

/-- PROBE_SAMPLE (R110, R140, R141). -/
def execProbeSample (z : Fin 4) (result : Nat) (s : State) : Result :=
  .next (settle (monitorSample z (takeReading z result (s.onZone z fun q => { q with probeTimer := 100 })),
    [.settled false]))

/-- REGULATION_PERIOD (R112). -/
def execRegulationPeriod (z : Fin 4) (s : State) : Result :=
  .next (settle (regulationPeriod z (s.onZone z fun q => { q with regTimer := 1000 }), [.settled false]))

/-- VALVE_WINDOW_START (R114). -/
def execValveWindowStart (z : Fin 4) (s : State) : Result :=
  .next (s.onZone z (windowStart s.dose.tunnelRecipe.isSome))

/-- VALVE_CLOSE (R114): not in a window whose duty is the whole window (log 28). -/
def execValveClose (z : Fin 4) (s : State) : Result :=
  .next (s.onZone z fun q => { q with valve := q.valve && decide (q.windowDuty = 1000) })

/-! ### Dose Tracker -/

/-- An entry is depended on: tunnel recipe, pending recipe or an order's (R125). -/
def recipeInUse (s : State) (i : Fin 4) : Bool :=
  decide (s.dose.tunnelRecipe = some i) || decide (s.dose.pendingRecipe = some i) ||
    s.queue.orders.any fun o => decide (o.recipe = i)

/-- RECIPE_SET (R125). -/
def recipeSet (_ : Port) (pl : List Byte) (s : State) : State × Answer :=
  let i := fin4 (u8 pl 0)
  if 3 < u8 pl 0 ∨ 1 < u8 pl 1 then refuse .badValue s
  else if u8 pl 1 = 1 ∧ recipeOk (recipeOf pl) = false then refuse .badValue s
  else if recipeInUse s i then refuse .inUse s
  else
    okWith (byte1 (bit (s.dose.recipes.get i).valid 1))
      (s.onDose fun d =>
        { d with recipes :=
          d.recipes.set i (if u8 pl 1 = 1 then recipeOf pl else { d.recipes.get i with valid := false }) })

/-- RECIPE_SET (R125). -/
def execRecipeSet (f : Frame) (s : State) : Result := .next (serve 0x14 (some .line) (exactly 26) recipeSet f s)

/-- The geometry condition: line STOPPED, panel table and web map empty (R58, R84, R126, R152). -/
def webEmpty (s : State) : Bool :=
  decide (s.sup.line = .stopped) && s.tracker.table.isEmpty && s.tracker.map.isEmpty

/-- TUNNEL_SET (R126).  BAD_VALUE goes before WRONG_STATE (log 45). -/
def tunnelSet (_ : Port) (pl : List Byte) (s : State) : State × Answer :=
  let t := tunnelSettingsOf pl
  if tunnelSettingsOk t s.roll.geo.lK = false then refuse .badValue s
  else if webEmpty s = false then refuse .wrongState s
  else
    okWith [] (s.onDose fun d =>
      { d with tunnel := t, cells := List.replicate t.n none, nextShift := ahead s.tracker.pOut t.pitch })

/-- TUNNEL_SET (R126). -/
def execTunnelSet (f : Frame) (s : State) : Result := .next (serve 0x19 (some .line) (exactly 10) tunnelSet f s)

/-- DOSE_SAMPLE (R131). -/
def execDoseSample (s : State) : Result := .next (doseSample (s.onDose fun d => { d with sampleTimer := 100 }))

end Sys2Proof.Machine
end

