-- ==== Sys2Proof/Machine/MonitorCommands.lean ====
section
/-! DEFINITION. Commands of the Monitor Unit: MONITOR_SET (R138), FAULT_CLEAR (R149, R184), the probe-check timer
(R144), the break timer (R147) and the emergency stop (R148). -/

namespace Sys2Proof.Machine

/-- A zone monitor's new settings; a new mode clears acted, and OFF the deglitch counter (R138). -/
def newMonitor (pl : List Byte) (k : ZoneMonitor) : ZoneMonitor :=
  let m := monitorModeOf (u8 pl 1)
  { k with mode := m, tLimit := u16 pl 2, blankSet := u8 pl 4, deglitchSet := u8 pl 5,
           acted := k.acted && decide (m = k.mode), deglitch := if m = .off then 0 else k.deglitch }

/-- The zone form (R138); bytes 4..7 are as the request leaves them (log 20). -/
def monitorSetZone (pl : List Byte) (s : State) : State × Answer :=
  let z := fin4 (u8 pl 0)
  let k := s.monitor.zones.get z
  if monitorZoneOk pl = false then refuse .badValue s
  else
    let s1 := s.onZoneMonitor z (newMonitor pl)
    let k1 := s1.monitor.zones.get z
    okWith (byte1 (u8 pl 0) ++ byte1 (monitorModeCode k.mode) ++ bytes2 k.tLimit ++ byte1 (monitorFlags s1.monitor z) ++
      byte1 k1.blank ++ byte1 k1.deglitch ++ byte1 (tripHoldCode k1.hold)) s1

/-- A new probe interval starts the count afresh, and 0 ends a test with no verdict (R144). -/
def newInterval (n : Nat) (s : State) : State :=
  if n = s.monitor.interval then s
  else
    let s1 := s.onMonitor fun m => { m with interval := n, intervalCount := 0 }
    match s.monitor.test with
    | none => s1
    | some z => if n = 0 then releaseReading z (endTest s1) else s1

/-- The line form (R138, R144, R147). -/
def monitorSetLine (pl : List Byte) (s : State) : State × Answer :=
  if monitorLineOk pl = false then refuse .badValue s
  else
    let s1 := (newInterval (u8 pl 1) s).onMonitor fun m =>
      { m with vBreakMin := u16 pl 2, breakTime := u8 pl 4,
               breakTimer := if u16 pl 2 = 0 then none else m.breakTimer.map fun _ => u8 pl 4 * 100 }
    okWith (byte1 s.monitor.interval ++ byte1 s1.monitor.position.val ++ byte1 (orNone255 s1.monitor.test)) s1

/-- MONITOR_SET: byte 0 tells the forms apart (R138). -/
def monitorSet (_ : Port) (pl : List Byte) (s : State) : State × Answer :=
  if 4 < u8 pl 0 then refuse .badValue s
  else if u8 pl 0 = 4 then (if pl.length = 5 then monitorSetLine pl s else refuse .badLength s)
  else if pl.length = 6 then monitorSetZone pl s
  else refuse .badLength s

/-- A MONITOR_SET transaction; n is 5 or 6. -/
def serveMonitorSet (f : Frame) (s : State) : State :=
  serve 0x16 (some .line) (fun n => exactly 5 n || exactly 6 n) monitorSet f s

/-- MONITOR_SET_ZONE (R138). -/
def execMonitorSetZone (f : Frame) (s : State) : Result := .next (serveMonitorSet f s)
/-- MONITOR_SET_LINE (R138). -/
def execMonitorSetLine (f : Frame) (s : State) : Result := .next (serveMonitorSet f s)

/-! ### FAULT_CLEAR -/

/-- FAULT_CLEAR releases this zone from TRIPPED (R149). -/
def clearsTrip (s : State) (z : Fin 4) : Bool :=
  let k := s.monitor.zones.get z
  decide ((s.zones.get z).state = .tripped) &&
    (decide (k.hold = .latch) || (decide (k.hold = .target) && k.targetChanged))

/-- FAULT_CLEAR releases this zone from PROBE_FAULT (R149). -/
def clearsProbe (s : State) (z : Fin 4) : Bool :=
  decide ((s.zones.get z).state = .probeFault) && (s.monitor.zones.get z).probeFlagged

/-- FAULT_CLEAR leaves this zone TRIPPED under TARGET (R149). -/
def leftTripped (s : State) (z : Fin 4) : Bool :=
  let k := s.monitor.zones.get z
  decide ((s.zones.get z).state = .tripped) && decide (k.hold = .target) && !k.targetChanged

/-- What FAULT_CLEAR does at one zone (R149). -/
def clearZone (s : State) (z : Fin 4) : State :=
  let s1 := s.onZoneMonitor z fun k => { k with warn := false, retry := false, probeFlagged := false }
  let s2 := if clearsTrip s z then releaseTrip z s1 else s1
  if clearsProbe s z then releaseProbe z s2 else s2

/-- FAULT_CLEAR on the line: a tripped line enters STOPPED, the high-water p_out is p_out (R82, R184). -/
def clearLine (s : State) : Work :=
  if s.sup.line = .tripped then
    followedBy
      (enterLine .stopped ((s.onSup fun v => { v with tripCause := none }).onTracker fun t => { t with high := t.pOut }))
      [.settled false]
  else (s, [.settled false])

/-- FAULT_CLEAR (R149, R184). -/
def faultClear (_ : Port) (_ : List Byte) (s : State) : State × Answer :=
  if s.sup.line = .tripped ∧ s.monitor.estop then refuse .wrongState s
  else
    okWith (byte1 (zoneSet (clearsTrip s)) ++ byte1 (zoneSet (clearsProbe s)) ++ byte1 (zoneSet (leftTripped s)))
      (settle (clearLine (zonesInOrder.foldl clearZone s)))

/-- FAULT_CLEAR (R149, R184). -/
def execFaultClear (f : Frame) (s : State) : Result := .next (serve 0x17 (some .line) (exactly 0) faultClear f s)

/-! ### Timers and the emergency stop -/

/-- The probe check begins a test at the next zone that can be tested (R144). -/
def beginSearch (s : State) : State :=
  match s.monitor.test, nextTest s with
  | none, some z => (beginTest z s).onMonitor fun m => { m with position := z + 1 }
  | _, _ => s

/-- PROBE_CHECK_TIMER (R144). -/
def execProbeCheckTimer (s : State) : Result :=
  .next
    (let s1 := s.onMonitor fun m => { m with checkTimer := 1000 }
     if s1.monitor.interval = 0 then s1
     else if s1.monitor.interval ≤ s1.monitor.intervalCount + 1 then
       beginSearch (s1.onMonitor fun m => { m with intervalCount := 0 })
     else s1.onMonitor fun m => { m with intervalCount := m.intervalCount + 1 })

/-- BREAK_TIMER_EXPIRY (R147).  A stopped timer has no expiry (log 6). -/
def execBreakTimerExpiry (s : State) : Result :=
  .next
    (if running s.monitor.breakTimer then
      settle (s.onMonitor fun m => { m with breakTimer := none }, [.trip .webBreak])
    else s)

/-- The Monitor Unit is given the emergency-stop level; a change to active passes ESTOP (R85, R148). -/
def giveEstop (level : Bool) (s : State) : Work :=
  if level = s.monitor.estop then quiet s
  else (s.onMonitor fun m => { m with estop := level }, if level then [.trip .estop] else [])

/-- ESTOP_CHANGE (R83, R148). -/
def execEstopChange (high : Bool) (s : State) : Result :=
  .next (settle (giveEstop (readPin high s.tracker.set.estopPol) (s.onPins fun p => { p with estop := high })))

end Sys2Proof.Machine
end

