-- ==== Sys2Proof/Machine/FormerCommands.lean ====
section
/-! DEFINITION. Commands of the Pleat Former: FORMER_SET (R58) and the phase timer's four expiries (R67 to R69). -/

namespace Sys2Proof.Machine

/-- Two settings have the same scales (R58). -/
def sameScales (a b : FormerSettings) : Bool :=
  decide (a.inNum = b.inNum) && decide (a.inDen = b.inDen) && decide (a.outNum = b.outNum) &&
    decide (a.outDen = b.outDen)

/-- FORMER_SET (R58).  BAD_VALUE goes before WRONG_STATE (log 45). -/
def formerSet (_ : Port) (pl : List Byte) (s : State) : State × Answer :=
  let c := formerSettingsOf pl
  if formerSettingsOk c = false then refuse .badValue s
  else if webEmpty s = false then refuse .wrongState s
  else if sameScales c s.former.set = false ∧ (s.former.cIn ≠ 0 ∨ s.former.cOut ≠ 0) then refuse .wrongState s
  else okWith [] (s.onFormer fun f => { f with set := c })

/-- FORMER_SET (R58). -/
def execFormerSet (f : Frame) (s : State) : Result := .next (serve 0x18 (some .line) (exactly 15) formerSet f s)

/-- The phase timer runs in this state. -/
def phaseRuns (st : FormerState) (s : State) : Bool := decide (s.former.state = st) && running s.former.timer

/-- FEED_TIMEOUT (R67).  Without the timer running in FEED there is no expiry (log 6). -/
def execFeedTimeout (s : State) : Result :=
  .next
    (if phaseRuns .feed s then
      settle (s.onFormer fun f => { f with timer := none }, [.trip .feedTimeout])
    else s)

/-- TUCK_END (R68). -/
def execTuckEnd (s : State) : Result :=
  .next
    (if phaseRuns .tuck s then
      settle (s.onFormer fun f =>
        { f with state := .press, timer := some (((currentStep s).map StepRec.press).getD 0) }, [])
    else s)

/-- PRESS_END (R68, R69): RETRACT ends at entry when blade home is already active. -/
def execPressEnd (s : State) : Result :=
  .next
    (if phaseRuns .press s then
      settle (s.onFormer fun f => { f with state := .retract, timer := some f.set.retractTimeout }, [.former])
    else s)

/-- BLADE_JAM (R69). -/
def execBladeJam (s : State) : Result :=
  .next
    (if phaseRuns .retract s then
      settle (s.onFormer fun f => { f with timer := none }, [.trip .bladeJam])
    else s)

end Sys2Proof.Machine
end

