-- ==== Sys2Proof/Machine/Patterns.lean ====
section
/-! DEFINITION. Commands of the Pattern Store (R38 to R41), the Run Queue (R45, R46, R52) and the report queue
(R97). -/

namespace Sys2Proof.Machine

/-! ### Pattern Store -/

/-- PATTERN_BEGIN (R38). -/
def patternBegin (_ : Port) (pl : List Byte) (s : State) : State × Answer :=
  let i := fin16 (u8 pl 0)
  if 15 < u8 pl 0 ∨ within (u8 pl 1) 1 64 = false then refuse .badValue s
  else if s.store.load.isSome ∧ s.store.load ≠ some i then refuse .busy s
  else if 0 < (slotAt s i).refs then refuse .inUse s
  else
    okWith (byte1 i.val)
      ((onSlot i (fun sl =>
        { state := .loading, lead := u16 pl 2, tail := u16 pl 4, stepCount := u8 pl 1, steps := [],
          refs := sl.refs }) s).onStore fun st => { st with load := some i })

def execPatternBegin (f : Frame) (s : State) : Result :=
  .next (serve 0x20 (some .pattern) (exactly 6) patternBegin f s)

/-- PATTERN_STEPS (R39). -/
def patternSteps (_ : Port) (pl : List Byte) (s : State) : State × Answer :=
  match s.store.load with
  | none => refuse .wrongState s
  | some i =>
    let n := (slotAt s i).steps.length + pl.length / 9
    if (slotAt s i).stepCount < n then refuse .full s
    else okWith (byte1 n) (onSlot i (fun sl => { sl with steps := sl.steps ++ stepRecs pl }) s)

def execPatternSteps (f : Frame) (s : State) : Result :=
  .next (serve 0x21 (some .pattern) stepsLength patternSteps f s)

/-- PATTERN_END (R40). -/
def patternEnd (_ : Port) (_ : List Byte) (s : State) : State × Answer :=
  match s.store.load with
  | none => refuse .wrongState s
  | some i =>
    let sl := slotAt s i
    match firstBad sl.stepCount 0 sl.steps with
    | some (k, code) => (s, ⟨.badValue, byte1 k ++ byte1 code⟩)
    | none =>
      okWith (byte1 i.val ++ byte1 sl.stepCount)
        ((onSlot i (fun q => { q with state := .valid }) s).onStore fun st => { st with load := none })

def execPatternEnd (f : Frame) (s : State) : Result :=
  .next (serve 0x22 (some .pattern) (exactly 0) patternEnd f s)

/-- PATTERN_DELETE (R41). -/
def patternDelete (_ : Port) (pl : List Byte) (s : State) : State × Answer :=
  let i := fin16 (u8 pl 0)
  if 15 < u8 pl 0 then refuse .badValue s
  else
    match (slotAt s i).state with
    | .empty => refuse .notFound s
    | .valid =>
      if 0 < (slotAt s i).refs then refuse .inUse s else okWith [] (onSlot i (fun _ => Slot.cleared) s)
    | .loading =>
      okWith [] ((onSlot i (fun sl => { Slot.cleared with refs := sl.refs }) s).onStore
        fun st => { st with load := none })

def execPatternDelete (f : Frame) (s : State) : Result :=
  .next (serve 0x23 (some .pattern) (exactly 1) patternDelete f s)

/-! ### Run Queue -/

/-- The order a taken ORDER_QUEUE adds (R44, R45). -/
def newOrder (id : Nat) (pl : List Byte) : Order :=
  { id := id, pattern := fin16 (u8 pl 0), recipe := fin4 (u8 pl 1), count := u16 pl 2, done := 0, cancel := false,
    frozen := false }

/-- ORDER_QUEUE (R45). -/
def orderQueue (_ : Port) (pl : List Byte) (s : State) : State × Answer :=
  if 15 < u8 pl 0 ∨ 3 < u8 pl 1 then refuse .badValue s
  else if 8 ≤ s.queue.orders.length then refuse .full s
  else if (slotAt s (fin16 (u8 pl 0))).state ≠ .valid then refuse .notFound s
  else if (s.dose.recipes.get (fin4 (u8 pl 1))).valid = false then refuse .notFound s
  else
    let id := freshId s.queue.orders 8 s.queue.nextId
    let s1 := addReference (fin16 (u8 pl 0))
      (s.onQueue fun q => { q with orders := q.orders ++ [newOrder id pl], nextId := idAfter id })
    okWith (byte1 id ++ byte1 s1.queue.orders.length) (settle (s1, [.search false, .space]))

def execOrderQueue (f : Frame) (s : State) : Result :=
  .next (serve 0x24 (some .pattern) (exactly 4) orderQueue f s)

/-- The order at the head is active and has this id. -/
def isActiveOrder (s : State) (id : Nat) : Bool :=
  s.queue.active && (s.queue.orders.head?).any fun o => o.id == id

/-- A queued order is removed (R46, R50). -/
def removeOrder (o : Order) (s : State) : State :=
  queuedFell (dropReference o.pattern
    (s.onQueue fun q => { q with orders := q.orders.eraseP fun x => x.id == o.id }))

/-- ORDER_CANCEL (R46). -/
def orderCancel (_ : Port) (pl : List Byte) (s : State) : State × Answer :=
  match s.queue.orders.find? fun o => o.id == u8 pl 0 with
  | none => refuse .notFound s
  | some o =>
    if o.frozen then refuse .inUse s
    else if isActiveOrder s o.id then
      if o.cancel then (s, ⟨.accepted, []⟩)
      else if s.former.panel.isSome then (onHead (fun x => { x with cancel := true }) s, ⟨.accepted, []⟩)
      else okWith [] (settle (retire 1 s, [.space]))
    else okWith [] (settle (removeOrder o s, [.space]))

def execOrderCancel (f : Frame) (s : State) : Result :=
  .next (serve 0x25 (some .pattern) (exactly 1) orderCancel f s)

/-- QUEUE_LOW_SET (R52). -/
def queueLowSet (_ : Port) (pl : List Byte) (s : State) : State × Answer :=
  if 7 < u8 pl 0 then refuse .badValue s
  else okWith (byte1 s.queue.low) (s.onQueue fun q => { q with low := u8 pl 0 })

def execQueueLowSet (f : Frame) (s : State) : Result :=
  .next (serve 0x27 (some .pattern) (exactly 1) queueLowSet f s)

/-! ### Reports -/

/-- REPORT_TAKE (R97). -/
def reportTake (_ : Port) (_ : List Byte) (s : State) : State × Answer :=
  match s.tracker.reports with
  | [] => (s, ⟨.empty, []⟩)
  | r :: rest =>
    let w := makeWaitingReport (s.onTracker fun t => { t with reports := rest, taken := t.taken + 1 })
    okWith (recordBytes r ++ byte1 w.1.tracker.reports.length) (settle w)

def execReportTake (f : Frame) (s : State) : Result :=
  .next (serve 0x26 (some .pattern) (exactly 0) reportTake f s)

end Sys2Proof.Machine
end

