-- ==== Sys2Proof/Machine/Ports.lean ====
section
/-! DEFINITION. Commands of the Station Ports: device reset (R22), transactions that carry no request (R3, R10), an
unknown kind (R8), NOP (R12), PRESENCE_SET (R15) and the expiry of a presence timer (R18 to R21). -/

namespace Sys2Proof.Machine

/-- DEVICE_RESET (R22 and section 6 of 00_scope.md): every block at its device-reset values.  The pins, the commands
that wait outside the part, and the counter of free values are not the part's to reset (log 5). -/
def execDeviceReset (s : State) : Result :=
  .next { State.powerOn s.pins with pending := s.pending, free := s.free }

/-- EMPTY_TRANSACTION (R3): the response stays pending, the receive frame is emptied, nothing is counted. -/
def execEmptyTransaction (p : Port) (s : State) : Result := .next (s.onPort p fun q => { q with rxFrame := [] })

/-- A discarded frame: counted as bad, answered BAD_LENGTH with the kind byte received, 0 without one (R9, R10). -/
def discardFrame (p : Port) (bytes : List Byte) (s : State) : State :=
  respond p (bytes.headD 0) ⟨.badLength, []⟩ (countBad p (shiftIn p bytes s))

/-- INCOMPLETE_FRAME (R10).  Bytes that are a complete frame contradict the row (log 7). -/
def execIncompleteFrame (p : Port) (bytes : List Byte) (s : State) : Result :=
  if (parseFrame (keptBytes bytes)).isSome then .fault .contradictoryCommand else .next (discardFrame p bytes s)

/-- UNKNOWN_KIND_FRAME (R8, R9).  A kind byte of the table contradicts the row (log 7); a payload no length byte of
0..60 announces is an incomplete frame. -/
def execUnknownKindFrame (kind : Byte) (f : Frame) (s : State) : Result :=
  if requestKinds.contains kind then .fault .contradictoryCommand
  else
    .next
      (if (parseFrame (keptBytes (f.bytes kind))).isNone then discardFrame f.port (f.bytes kind) s
      else respond f.port kind ⟨.badKind, []⟩ (countFrame f.port (shiftIn f.port (f.bytes kind) s)))

/-- NOP (R12): any length, answered OK. -/
def execNop (f : Frame) (s : State) : Result :=
  .next (serve 0x01 none (fun _ => true) (fun _ _ s => okWith [] s) f s)

/-- PRESENCE_SET at its port (R15, R16). -/
def presenceSet (p : Port) (pl : List Byte) (s : State) : State × Answer :=
  if p = .line ∧ u8 pl 0 = 0 ∧ s.sup.line ≠ .stopped then refuse .wrongState s
  else okWith [] (s.onPort p fun q => { q with timeout := u8 pl 0, timer := refreshed (u8 pl 0) })

/-- PRESENCE_SET (R15). -/
def execPresenceSet (f : Frame) (s : State) : Result := .next (serve 0x06 none (exactly 1) presenceSet f s)

/-- A waiting cut is withdrawn (R20, R172). -/
def withdrawCut (s : State) : State :=
  if s.roll.cut.state = .waiting then
    s.onCut fun k => { k with state := .idle, target := none, point := none, midpoint := false }
  else s

/-- What the loss of a port does to the blocks concerned (R19, R20, R21). -/
def portLost (p : Port) (s : State) : Work :=
  match p with
  | .line => stopNow s
  | .pattern => quiet s
  | .roll => (withdrawCut s, [.cancelSplice (some .masterLost)])

/-- PRESENCE_EXPIRY (R18); a timer that does not run has no expiry (log 6). -/
def execPresenceExpiry (p : Port) (s : State) : Result :=
  .next
    (if running (s.ports.get p).timer then
      settle (portLost p
        (raiseExcept p .masterLost (byte1 (portNumber p))
          (s.onPort p fun q => { q with lost := true, timer := none })))
    else s)

end Sys2Proof.Machine
end

