-- ==== Sys2Proof/Machine/RollCommands.lean ====
section
/-! DEFINITION. Commands of the Roll Change Unit: ROLL_GEOMETRY_SET (R152), ROLL_STATUS (R153), SPLICE_ARM (R157),
SPLICE_FORCE (R161), SPLICE_CANCEL (R166), CUT_REQUEST (R169, R171), CUT_CANCEL (R172) and the two pulses' ends (R162,
R170). -/

namespace Sys2Proof.Machine

/-- The condition of ROLL_GEOMETRY_SET (R152). -/
def rollIdle (s : State) : Bool :=
  webEmpty s && s.tracker.joints.isEmpty && decide (s.roll.planner.state = .idle) &&
    decide (s.roll.cut.state = .idle) && decide (s.roll.planner.jointDue = none)

/-- ROLL_GEOMETRY_SET (R152).  BAD_VALUE goes before WRONG_STATE (log 45). -/
def rollGeometrySet (_ : Port) (pl : List Byte) (s : State) : State × Answer :=
  let g := geometryOf pl
  if geometryOk g s.dose.tunnel = false then refuse .badValue s
  else if rollIdle s = false then refuse .wrongState s
  else okWith [] (s.onGeo fun _ => g)

/-- ROLL_GEOMETRY_SET (R152). -/
def execRollGeometrySet (f : Frame) (s : State) : Result :=
  .next (serve 0x1C (some .line) (exactly 48) rollGeometrySet f s)

/-- ROLL_STATUS (R153).  BAD_VALUE goes before BUSY (log 45). -/
def rollStatus (_ : Port) (pl : List Byte) (s : State) : State × Answer :=
  if 2147483647 < u32 pl 0 then refuse .badValue s
  else if s.roll.planner.state = .fired then refuse .busy s
  else
    let r : RollStatus := ⟨s.tracker.pIn, u32 pl 0, false⟩
    okWith (posBytes r.pStatus ++ posBytes (deadlineOf s.roll.geo r))
      (settle (testRollLow (s.onPlanner fun p => { p with status := some r }), [.search false]))

/-- ROLL_STATUS (R153). -/
def execRollStatus (f : Frame) (s : State) : Result := .next (serve 0x30 (some .roll) (exactly 4) rollStatus f s)

/-- SPLICE_ARM (R157). -/
def spliceArm (_ : Port) (_ : List Byte) (s : State) : State × Answer :=
  if s.roll.planner.state ≠ .idle then refuse .busy s
  else if s.sup.line = .tripped ∨ s.roll.planner.status = none then refuse .wrongState s
  else
    let s1 := settle (s.onPlanner fun p => { p with state := .planning, forced := false, firedSinceArm := false },
      [.search false])
    (s1, ⟨.accepted, byte1 (plannerStateCode s1.roll.planner.state)⟩)

/-- SPLICE_ARM (R157). -/
def execSpliceArm (f : Frame) (s : State) : Result := .next (serve 0x31 (some .roll) (exactly 0) spliceArm f s)

/-- SPLICE_FORCE (R161). -/
def spliceForce (_ : Port) (_ : List Byte) (s : State) : State × Answer :=
  if s.roll.planner.state = .approach ∨ s.roll.planner.state = .fired then refuse .busy s
  else if s.sup.line = .tripped then refuse .wrongState s
  else
    let s1 := s.onPlanner fun p => { p with firedSinceArm := p.firedSinceArm && decide (p.state ≠ .idle) }
    (forceSplice s1, ⟨.accepted, posBytes (ahead s.tracker.pIn s.roll.geo.a)⟩)

/-- SPLICE_FORCE (R161). -/
def execSpliceForce (f : Frame) (s : State) : Result := .next (serve 0x32 (some .roll) (exactly 0) spliceForce f s)

/-- SPLICE_CANCEL (R166). -/
def spliceCancel (_ : Port) (_ : List Byte) (s : State) : State × Answer :=
  match s.roll.planner.state with
  | .planning | .scheduled | .approach => okWith [] (settle (withdrawSplice none s))
  | .fired => refuse .tooLate s
  | .idle => if s.roll.planner.firedSinceArm then refuse .tooLate s else refuse .wrongState s

/-- SPLICE_CANCEL (R166). -/
def execSpliceCancel (f : Frame) (s : State) : Result := .next (serve 0x33 (some .roll) (exactly 0) spliceCancel f s)

/-- SPLICE_PULSE_END (R162). -/
def execSplicePulseEnd (s : State) : Result := .next (s.onPlanner fun p => { p with pulse := none })

/-! ### Cuts -/

/-- CUT_REQUEST NEXT_END (R169). -/
def cutNextEnd (s : State) : State × Answer :=
  if s.roll.cut.state ≠ .idle then refuse .busy s
  else
    let s1 := chooseTarget (s.onCut fun _ =>
      { state := .waiting, target := none, midpoint := false, point := none, fired := false, pulse := s.roll.cut.pulse })
    (s1, ⟨.accepted, byte1 (bit s1.roll.cut.target.isSome 1)⟩)

/-- The oldest panel at the knife position (R171). -/
def panelAtCut (s : State) : Option (BitVec 16) :=
  (s.tracker.table.find? (covers (s.tracker.pOut - dist s.roll.geo.lK))).map PanelRec.number

/-- The panel cut through is flagged (R171). -/
def flagCutThrough (n : Option (BitVec 16)) (s : State) : State :=
  match n with
  | none => s
  | some k => onPanel k (fun r => { r with cutThrough := true }) s

/-- CUT_REQUEST FORCE (R171). -/
def cutForce (s : State) : State × Answer :=
  if s.roll.cut.state = .fired then refuse .busy s
  else
    okWith []
      (fireCut 1 (panelAtCut s)
        ((flagCutThrough (panelAtCut s) s).onCut fun k => { k with target := none, midpoint := false, point := none }))

/-- CUT_REQUEST (R168). -/
def cutRequest (_ : Port) (pl : List Byte) (s : State) : State × Answer :=
  if 1 < u8 pl 0 then refuse .badValue s else if u8 pl 0 = 0 then cutNextEnd s else cutForce s

/-- CUT_REQUEST_NEXT_END (R169). -/
def execCutRequestNextEnd (f : Frame) (s : State) : Result :=
  .next (serve 0x34 (some .roll) (exactly 1) cutRequest f s)

/-- CUT_REQUEST_FORCE (R171). -/
def execCutRequestForce (f : Frame) (s : State) : Result :=
  .next (serve 0x34 (some .roll) (exactly 1) cutRequest f s)

/-- CUT_CANCEL (R172). -/
def cutCancel (_ : Port) (_ : List Byte) (s : State) : State × Answer :=
  match s.roll.cut.state with
  | .waiting => okWith [] (withdrawCut s)
  | .fired => refuse .tooLate s
  | .idle => if s.roll.cut.fired then refuse .tooLate s else refuse .wrongState s

/-- CUT_CANCEL (R172). -/
def execCutCancel (f : Frame) (s : State) : Result := .next (serve 0x35 (some .roll) (exactly 0) cutCancel f s)

/-- CUT_PULSE_END (R170): the scheduler returns to IDLE.  A stopped timer has no expiry (log 6). -/
def execCutPulseEnd (s : State) : Result :=
  .next
    (if running s.roll.cut.pulse then
      s.onCut fun k => { k with state := .idle, target := none, midpoint := false, point := none, pulse := none }
    else s)

end Sys2Proof.Machine
end

