-- ==== Sys2Proof/Machine/TrackerCommands.lean ====
section
/-! DEFINITION. Commands of the Web Tracker: the encoders (R81, R82), the switch inputs and their filters (R83), and
INPUT_SET (R84, R85). -/

namespace Sys2Proof.Machine

/-! ### Encoders -/

/-- What a count of p_in is told to (R81; the order is the model's, log 9). -/
def infeedSignals : List Sig :=
  [.joints, .former, .jointsPast, .deadline, .approach, .fire, .window, .dueExpiry, .rollOut]

/-- INFEED_COUNT (R81): the new levels of A and B. -/
def execInfeedCount (a b : Bool) (s : State) : Result :=
  .next
    (let c := encoderCount s.tracker.set.infeedReversed s.pins.infeedA s.pins.infeedB a b
     let s1 := s.onPins fun p => { p with infeedA := a, infeedB := b }
     if c = .none then s1 else settle (s1.onTracker fun t => { t with pIn := moved c t.pIn }, infeedSignals))

/-- A forward count of p_out: high-water, break timer, cell shift, cut compare, then drain, knife and former (R82, R92,
R128, R130, R147, R170; the order is the model's, log 10). -/
def outfeedForward (s : State) : Work :=
  let p := s.tracker.pOut + 1
  let s1 := s.onTracker fun t => { t with pOut := p, high := if after p t.high then p else t.high }
  let s2 := s1.onMonitor fun m => { m with breakTimer := m.breakTimer.map fun _ => m.breakTime * 100 }
  (cutCompare (shiftCells s2), [.drain, .knife, .former])

/-- The web has run back more than one cell pitch (R82). -/
def ranBack (s : State) : Bool :=
  let d := (s.tracker.high - s.tracker.pOut).toNat
  decide (s.dose.tunnel.pitch < d) && decide (d < 2 ^ 31) && decide (s.sup.line ≠ .tripped)

/-- A reverse count of p_out: marks moved back, the reverse check (R82, R91). -/
def outfeedReverse (s : State) : Work :=
  let p := s.tracker.pOut - 1
  let s1 := s.onTracker fun t => { t with pOut := p, map := marksBack p t.map }
  (s1, if ranBack s1 then [.trip .webReverse] else [])

/-- OUTFEED_COUNT (R81): the new levels of A and B. -/
def execOutfeedCount (a b : Bool) (s : State) : Result :=
  .next
    (let s1 := s.onPins fun p => { p with outfeedA := a, outfeedB := b }
     match encoderCount s.tracker.set.outfeedReversed s.pins.outfeedA s.pins.outfeedB a b with
     | .none => s1
     | .forward => settle (outfeedForward s1)
     | .reverse => settle (outfeedReverse s1))

/-! ### Switches -/

/-- Change a pin's level. -/
def setPin (sw : Switch) (high : Bool) (p : Pins) : Pins :=
  match sw with
  | .bladeHome => { p with bladeHome := high }
  | .hoodUp => { p with hoodUp := high }
  | .hoodDown => { p with hoodDown := high }
  | .jointDetector => { p with jointDetector := high }

/-- Change a switch's filter. -/
def onFilter (sw : Switch) (f : Filter → Filter) (s : State) : State :=
  s.onTracker fun t =>
    match sw with
    | .bladeHome => { t with bladeHome := f t.bladeHome }
    | .hoodUp => { t with hoodUp := f t.hoodUp }
    | .hoodDown => { t with hoodDown := f t.hoodDown }
    | .jointDetector => { t with jointDetector := f t.jointDetector }

/-- What an edge does, the filtered level being already the new one (R69, R76, R86, R177).  A hood switch counts only for its own
command. -/
def edgeEffect (sw : Switch) (level : Bool) (s : State) : Work :=
  match sw with
  | .bladeHome =>
    if level then (s.onFormer fun f => { f with retractAfterTrip := false }, [.former]) else quiet s
  | .hoodUp => if s.sup.hoodDown then quiet s else (deriveHood s, [.hoodSeen])
  | .hoodDown => if s.sup.hoodDown then (deriveHood s, [.hoodSeen]) else quiet s
  | .jointDetector => if level then (capture s, []) else quiet s

/-- The filtered level takes the pin's level; a change is an edge (R83). -/
def takeLevel (sw : Switch) (s : State) : State :=
  let level := reading s sw
  if level = (filterOf s.tracker sw).level then onFilter sw (fun f => { f with timer := none }) s
  else settle (edgeEffect sw level (onFilter sw (fun _ => ⟨level, none⟩) s))

/-- SWITCH_PIN_CHANGE (R83).  A pin that keeps its level has not changed. -/
def execSwitchPinChange (sw : Switch) (high : Bool) (s : State) : Result :=
  .next
    (if pinOf s.pins sw = high then s
    else
      let s1 := s.onPins (setPin sw high)
      let t := filterTimeOf s.tracker.set sw
      if t = 0 then takeLevel sw s1
      else
        onFilter sw (fun f => { f with timer := if reading s1 sw = f.level then none else some t }) s1)

/-- FILTER_EXPIRY (R83).  A stopped timer has no expiry (log 6). -/
def execFilterExpiry (sw : Switch) (s : State) : Result :=
  .next (if running (filterOf s.tracker sw).timer then takeLevel sw s else s)

/-! ### INPUT_SET -/

/-- A filter under new settings: a new polarity re-reads the pin with no edge and stops the timer; a new time restarts a
running timer (R83, R85, log 24). -/
def refilter (samePol : Bool) (level : Bool) (oldTime newTime : Nat) (f : Filter) : Filter :=
  if samePol then { f with timer := f.timer.map fun left => if oldTime = newTime then left else newTime }
  else ⟨level, none⟩

/-- One switch's filter under new settings. -/
def refilterSwitch (old : InputSettings) (sw : Switch) (s : State) : State :=
  let new := s.tracker.set
  onFilter sw
    (refilter (polarityOf old sw == polarityOf new sw) (reading s sw) (filterTimeOf old sw) (filterTimeOf new sw)) s

/-- INPUT_SET (R84, R85).  BAD_VALUE goes before WRONG_STATE (log 45). -/
def inputSet (_ : Port) (pl : List Byte) (s : State) : State × Answer :=
  let c := inputSettingsOf pl
  let old := s.tracker.set
  if inputSettingsOk pl = false then refuse .badValue s
  else if sameWiring c old = false ∧ webEmpty s = false then refuse .wrongState s
  else
    let s1 := s.onTracker fun t => { t with set := c }
    let s2 := [Switch.bladeHome, .hoodUp, .hoodDown, .jointDetector].foldl (fun a sw => refilterSwitch old sw a) s1
    okWith [] (settle (giveEstop (readPin s.pins.estop c.estopPol) s2))

/-- INPUT_SET (R84). -/
def execInputSet (f : Frame) (s : State) : Result := .next (serve 0x1B (some .line) (exactly 6) inputSet f s)

end Sys2Proof.Machine
end

