-- ==== Sys2Proof/Machine/Dispatch.lean ====
section
/-! DEFINITION. The meaning of each command: one arm per row of spec/opcode_table.json. -/

namespace Sys2Proof.Machine

def exec (i : Instr) (s : State) : Host.Outcome State Fault Refusal :=
  match i with
  | .deviceReset => Sys2Proof.Machine.execDeviceReset s
  | .emptyTransaction p => Sys2Proof.Machine.execEmptyTransaction p s
  | .incompleteFrame p bytes => Sys2Proof.Machine.execIncompleteFrame p bytes s
  | .unknownKindFrame kind f => Sys2Proof.Machine.execUnknownKindFrame kind f s
  | .nop f => Sys2Proof.Machine.execNop f s
  | .lineView f => Sys2Proof.Machine.execLineView f s
  | .zoneView f => Sys2Proof.Machine.execZoneView f s
  | .formerView f => Sys2Proof.Machine.execFormerView f s
  | .queueView f => Sys2Proof.Machine.execQueueView f s
  | .panelView f => Sys2Proof.Machine.execPanelView f s
  | .mapView f => Sys2Proof.Machine.execMapView f s
  | .spliceView f => Sys2Proof.Machine.execSpliceView f s
  | .portView f => Sys2Proof.Machine.execPortView f s
  | .eventTake f => Sys2Proof.Machine.execEventTake f s
  | .routeSet f => Sys2Proof.Machine.execRouteSet f s
  | .floorSet f => Sys2Proof.Machine.execFloorSet f s
  | .presenceSet f => Sys2Proof.Machine.execPresenceSet f s
  | .lineStart f => Sys2Proof.Machine.execLineStart f s
  | .lineStopImmediate f => Sys2Proof.Machine.execLineStopImmediate f s
  | .lineStopEndOfPanel f => Sys2Proof.Machine.execLineStopEndOfPanel f s
  | .lineReset f => Sys2Proof.Machine.execLineReset f s
  | .speedSet f => Sys2Proof.Machine.execSpeedSet f s
  | .recipeSet f => Sys2Proof.Machine.execRecipeSet f s
  | .zoneSet f => Sys2Proof.Machine.execZoneSet f s
  | .zoneDisable f => Sys2Proof.Machine.execZoneDisable f s
  | .zoneArm f => Sys2Proof.Machine.execZoneArm f s
  | .zoneEnable f => Sys2Proof.Machine.execZoneEnable f s
  | .monitorSetZone f => Sys2Proof.Machine.execMonitorSetZone f s
  | .monitorSetLine f => Sys2Proof.Machine.execMonitorSetLine f s
  | .faultClear f => Sys2Proof.Machine.execFaultClear f s
  | .formerSet f => Sys2Proof.Machine.execFormerSet f s
  | .tunnelSet f => Sys2Proof.Machine.execTunnelSet f s
  | .motionSet f => Sys2Proof.Machine.execMotionSet f s
  | .inputSet f => Sys2Proof.Machine.execInputSet f s
  | .rollGeometrySet f => Sys2Proof.Machine.execRollGeometrySet f s
  | .patternBegin f => Sys2Proof.Machine.execPatternBegin f s
  | .patternSteps f => Sys2Proof.Machine.execPatternSteps f s
  | .patternEnd f => Sys2Proof.Machine.execPatternEnd f s
  | .patternDelete f => Sys2Proof.Machine.execPatternDelete f s
  | .orderQueue f => Sys2Proof.Machine.execOrderQueue f s
  | .orderCancel f => Sys2Proof.Machine.execOrderCancel f s
  | .reportTake f => Sys2Proof.Machine.execReportTake f s
  | .queueLowSet f => Sys2Proof.Machine.execQueueLowSet f s
  | .rollStatus f => Sys2Proof.Machine.execRollStatus f s
  | .spliceArm f => Sys2Proof.Machine.execSpliceArm f s
  | .spliceForce f => Sys2Proof.Machine.execSpliceForce f s
  | .spliceCancel f => Sys2Proof.Machine.execSpliceCancel f s
  | .cutRequestNextEnd f => Sys2Proof.Machine.execCutRequestNextEnd f s
  | .cutRequestForce f => Sys2Proof.Machine.execCutRequestForce f s
  | .cutCancel f => Sys2Proof.Machine.execCutCancel f s
  | .presenceExpiry p => Sys2Proof.Machine.execPresenceExpiry p s
  | .infeedCount a b => Sys2Proof.Machine.execInfeedCount a b s
  | .outfeedCount a b => Sys2Proof.Machine.execOutfeedCount a b s
  | .switchPinChange sw high => Sys2Proof.Machine.execSwitchPinChange sw high s
  | .filterExpiry sw => Sys2Proof.Machine.execFilterExpiry sw s
  | .estopChange high => Sys2Proof.Machine.execEstopChange high s
  | .feedTimeout => Sys2Proof.Machine.execFeedTimeout s
  | .tuckEnd => Sys2Proof.Machine.execTuckEnd s
  | .pressEnd => Sys2Proof.Machine.execPressEnd s
  | .bladeJam => Sys2Proof.Machine.execBladeJam s
  | .probeSample z result => Sys2Proof.Machine.execProbeSample z result s
  | .regulationPeriod z => Sys2Proof.Machine.execRegulationPeriod z s
  | .valveWindowStart z => Sys2Proof.Machine.execValveWindowStart z s
  | .valveClose z => Sys2Proof.Machine.execValveClose z s
  | .doseSample => Sys2Proof.Machine.execDoseSample s
  | .speedUpdate => Sys2Proof.Machine.execSpeedUpdate s
  | .probeCheckTimer => Sys2Proof.Machine.execProbeCheckTimer s
  | .breakTimerExpiry => Sys2Proof.Machine.execBreakTimerExpiry s
  | .hoodTimerExpiry => Sys2Proof.Machine.execHoodTimerExpiry s
  | .hoodDelayExpiry => Sys2Proof.Machine.execHoodDelayExpiry s
  | .splicePulseEnd => Sys2Proof.Machine.execSplicePulseEnd s
  | .cutPulseEnd => Sys2Proof.Machine.execCutPulseEnd s

end Sys2Proof.Machine
end

