-- ==== Sys2Proof/Machine/Timers.lean ====
section
/-! DEFINITION. The part's own time: what a millisecond does to every timer, and which timers have run out (section 5.4
of 00_scope.md; log 1). -/

namespace Sys2Proof.Machine

/-- A timer that runs loses a millisecond; one that has run out stays so until its expiry is taken. -/
def tickTimer (t : Option Nat) : Option Nat := t.map (· - 1)

def tickPort (p : PortState) : PortState := { p with timer := tickTimer p.timer }
def tickFilter (f : Filter) : Filter := { f with timer := tickTimer f.timer }
def tickZone (z : Zone) : Zone :=
  { z with probeTimer := z.probeTimer - 1, regTimer := z.regTimer - 1, windowTimer := z.windowTimer - 1 }

/-- One millisecond passes. -/
def tick (s : State) : State :=
  { s with
    ports := s.ports.map tickPort,
    former := { s.former with timer := tickTimer s.former.timer },
    tracker := { s.tracker with
      bladeHome := tickFilter s.tracker.bladeHome, hoodUp := tickFilter s.tracker.hoodUp,
      hoodDown := tickFilter s.tracker.hoodDown, jointDetector := tickFilter s.tracker.jointDetector },
    zones := s.zones.map tickZone,
    dose := { s.dose with sampleTimer := s.dose.sampleTimer - 1 },
    monitor := { s.monitor with
      breakTimer := tickTimer s.monitor.breakTimer, checkTimer := s.monitor.checkTimer - 1 },
    roll := { s.roll with
      planner := { s.roll.planner with pulse := tickTimer s.roll.planner.pulse },
      cut := { s.roll.cut with pulse := tickTimer s.roll.cut.pulse } },
    sup := { s.sup with
      hoodTimer := tickTimer s.sup.hoodTimer, hoodDelayTimer := tickTimer s.sup.hoodDelayTimer,
      updateTimer := s.sup.updateTimer - 1 } }

/-- A one-shot timer has run out. -/
def ranOut (t : Option Nat) : Bool := decide (t = some 0)

/-- A command when its condition holds. -/
def dueIf (b : Bool) (c : Instr) : List Instr := if b then [c] else []

/-- The valve's close time has come: the window has run its duty, and the duty is not the whole window (R114). -/
def valveDue (z : Zone) : Bool :=
  z.valve && decide (z.windowDuty < 1000) && decide (z.windowDuty ≤ 1000 - z.windowTimer)

/-- The expiry of the former's phase timer (R67 to R69). -/
def phaseDue (f : Former) : List Instr :=
  if ranOut f.timer then
    match f.state with
    | .feed => [.feedTimeout]
    | .tuck => [.tuckEnd]
    | .press => [.pressEnd]
    | .retract => [.bladeJam]
    | .idle | .lead | .wait | .flat | .tail | .bridge | .held => []
  else []

/-- The expiries due at a zone; `result` is what its converter gives (R110, R112, R114). -/
def zoneDue (result : Nat) (z : Fin 4) (q : Zone) : List Instr :=
  dueIf (q.probeTimer = 0) (.probeSample z result) ++ dueIf (q.regTimer = 0) (.regulationPeriod z) ++
    dueIf (q.windowTimer = 0) (.valveWindowStart z) ++ dueIf (valveDue q) (.valveClose z)

/-- Every expiry that is due; `result` is what a converter gives for a sample among them. -/
def due (result : Nat) (s : State) : List Instr :=
  dueIf (ranOut s.ports.line.timer) (.presenceExpiry .line) ++
  dueIf (ranOut s.ports.pattern.timer) (.presenceExpiry .pattern) ++
  dueIf (ranOut s.ports.roll.timer) (.presenceExpiry .roll) ++
  dueIf (ranOut s.tracker.bladeHome.timer) (.filterExpiry .bladeHome) ++
  dueIf (ranOut s.tracker.hoodUp.timer) (.filterExpiry .hoodUp) ++
  dueIf (ranOut s.tracker.hoodDown.timer) (.filterExpiry .hoodDown) ++
  dueIf (ranOut s.tracker.jointDetector.timer) (.filterExpiry .jointDetector) ++
  phaseDue s.former ++
  zoneDue result 0 s.zones.z0 ++ zoneDue result 1 s.zones.z1 ++ zoneDue result 2 s.zones.z2 ++
  zoneDue result 3 s.zones.z3 ++
  dueIf (s.dose.sampleTimer = 0) .doseSample ++
  dueIf (s.sup.updateTimer = 0) .speedUpdate ++
  dueIf (s.monitor.checkTimer = 0) .probeCheckTimer ++
  dueIf (ranOut s.monitor.breakTimer) .breakTimerExpiry ++
  dueIf (ranOut s.sup.hoodTimer) .hoodTimerExpiry ++
  dueIf (ranOut s.sup.hoodDelayTimer) .hoodDelayExpiry ++
  dueIf (ranOut s.roll.planner.pulse) .splicePulseEnd ++
  dueIf (ranOut s.roll.cut.pulse) .cutPulseEnd

/-- The free converter result of this step (R110, log 3). -/
def freeResult (s : State) : Nat := Config.converterResult s.free

/-- The due expiries with this step's free converter result. -/
def dueNow (s : State) : List Instr := due (freeResult s) s

/-- Which of several due expiries is taken first is a free choice (log 2); one alone is taken. -/
def pick (s : State) (ds : List Instr) : Option Instr :=
  match ds with
  | [] => none
  | [c] => some c
  | c :: d :: ds => (c :: d :: ds)[Config.dueChoice s.free % (ds.length + 2)]?

end Sys2Proof.Machine
end

