-- ==== Sys2Proof/Machine/Step.lean ====
section
/-! DEFINITION. One step of the part: the command at the front of the queue; on an empty queue, the part's own time. -/

namespace Sys2Proof.Machine

/-- The queue moves up: the command at its front has been taken. -/
def State.withPending (q : List Instr) (s : State) : State := { s with pending := q }

/-- On an empty queue an expiry that is due is taken, or else a millisecond passes (log 1, log 2). -/
def idle (s : State) : Host.Outcome State Fault Refusal :=
  match pick s (dueNow s) with
  | none => .next (tick s)
  | some c => exec c s.nextFree

/-- One step. -/
def step (s : State) : Host.Outcome State Fault Refusal :=
  match s.pending with
  | [] => idle s
  | c :: rest => exec c (s.withPending rest)

/-- `s` with the command a table word spells at the front of its queue; no row gives bits, so no word spells one
(log 29). -/
def State.withFetchWord (s : State) (nbits w : Nat) : State :=
  match decodeTableWord nbits w with
  | none => s
  | some c => s.withPending (c :: s.pending)

end Sys2Proof.Machine
end

