-- ==== Sys2Proof/Safety.lean ====
section
/-! DEFINITION. The terms the statements are made in: what a port holds after an answer, the request table of section
1.5, and the laws of the part as predicates of a state. -/

namespace Sys2Proof.Safety

open Sys2Proof.Machine

/-! ### Answers -/

/-- A port after a complete request frame of `kind` was answered: counted, refreshed, lost flag clear, the old response
shifted out and the new one pending (R3, R6, R9, R17). -/
def answeredPort (kind : Byte) (f : Frame) (st : Status) (payload : List Byte) (q : PortState) : PortState :=
  { q with
    rxFrame := [], response := ⟨kind, st, payload⟩, lost := false,
    timer := if q.timeout = 0 then none else some (q.timeout * 100), frameCount := q.frameCount + 1,
    dataOut := shiftedOut q.response (f.bytes kind).length }

/-- `s` with the request's port answered and nothing else changed. -/
def answered (kind : Byte) (f : Frame) (st : Status) (payload : List Byte) (s : State) : State :=
  { s with ports := s.ports.set f.port (answeredPort kind f st payload (s.ports.get f.port)) }

/-- A port after an incomplete frame of whole bytes `bytes`: counted as bad and answered BAD_LENGTH (R9, R10). -/
def discardedPort (bytes : List Byte) (q : PortState) : PortState :=
  { q with
    rxFrame := [], response := ⟨bytes.headD 0, .badLength, []⟩, badCount := min 255 (q.badCount + 1),
    dataOut := shiftedOut q.response bytes.length }

/-- `s` with the port's frame discarded and nothing else changed. -/
def discarded (p : Port) (bytes : List Byte) (s : State) : State :=
  { s with ports := s.ports.set p (discardedPort bytes (s.ports.get p)) }

/-- A row of the request table: the kind byte, the authority (none is "any"), the lengths allowed, and the frame. -/
structure Request where
  kind : Byte
  authority : Option Port
  lengths : List Nat
  frame : Frame

/-- The lengths NOP allows (R12). -/
def anyLength : List Nat := List.range 61

/-- The request table of section 1.5 with the lengths of each payload layout. -/
def requestOf : Instr → Option Request
  | .nop f => some ⟨0x01, none, anyLength, f⟩
  | .lineView f | .zoneView f | .formerView f | .queueView f | .panelView f | .mapView f | .spliceView f
  | .portView f => some ⟨0x02, none, [3], f⟩
  | .eventTake f => some ⟨0x03, none, [0], f⟩
  | .routeSet f => some ⟨0x04, none, [2], f⟩
  | .floorSet f => some ⟨0x05, none, [1], f⟩
  | .presenceSet f => some ⟨0x06, none, [1], f⟩
  | .lineStart f => some ⟨0x10, some .line, [0], f⟩
  | .lineStopImmediate f | .lineStopEndOfPanel f => some ⟨0x11, some .line, [1], f⟩
  | .lineReset f => some ⟨0x12, some .line, [0], f⟩
  | .speedSet f => some ⟨0x13, some .line, [2], f⟩
  | .recipeSet f => some ⟨0x14, some .line, [26], f⟩
  | .zoneSet f | .zoneDisable f | .zoneArm f | .zoneEnable f => some ⟨0x15, some .line, [11], f⟩
  | .monitorSetZone f | .monitorSetLine f => some ⟨0x16, some .line, [5, 6], f⟩
  | .faultClear f => some ⟨0x17, some .line, [0], f⟩
  | .formerSet f => some ⟨0x18, some .line, [15], f⟩
  | .tunnelSet f => some ⟨0x19, some .line, [10], f⟩
  | .motionSet f => some ⟨0x1A, some .line, [7], f⟩
  | .inputSet f => some ⟨0x1B, some .line, [6], f⟩
  | .rollGeometrySet f => some ⟨0x1C, some .line, [48], f⟩
  | .patternBegin f => some ⟨0x20, some .pattern, [6], f⟩
  | .patternSteps f => some ⟨0x21, some .pattern, [9, 18, 27, 36, 45, 54], f⟩
  | .patternEnd f => some ⟨0x22, some .pattern, [0], f⟩
  | .patternDelete f => some ⟨0x23, some .pattern, [1], f⟩
  | .orderQueue f => some ⟨0x24, some .pattern, [4], f⟩
  | .orderCancel f => some ⟨0x25, some .pattern, [1], f⟩
  | .reportTake f => some ⟨0x26, some .pattern, [0], f⟩
  | .queueLowSet f => some ⟨0x27, some .pattern, [1], f⟩
  | .rollStatus f => some ⟨0x30, some .roll, [4], f⟩
  | .spliceArm f => some ⟨0x31, some .roll, [0], f⟩
  | .spliceForce f => some ⟨0x32, some .roll, [0], f⟩
  | .spliceCancel f => some ⟨0x33, some .roll, [0], f⟩
  | .cutRequestNextEnd f | .cutRequestForce f => some ⟨0x34, some .roll, [1], f⟩
  | .cutCancel f => some ⟨0x35, some .roll, [0], f⟩
  | .deviceReset | .emptyTransaction _ | .incompleteFrame _ _ | .unknownKindFrame _ _ | .presenceExpiry _
  | .infeedCount _ _ | .outfeedCount _ _ | .switchPinChange _ _ | .filterExpiry _ | .estopChange _ | .feedTimeout
  | .tuckEnd | .pressEnd | .bladeJam | .probeSample _ _ | .regulationPeriod _ | .valveWindowStart _ | .valveClose _
  | .doseSample | .speedUpdate | .probeCheckTimer | .breakTimerExpiry | .hoodTimerExpiry | .hoodDelayExpiry
  | .splicePulseEnd | .cutPulseEnd => none

/-- The rows of STATUS_READ (R13). -/
def isViewRow (c : Instr) (f : Frame) : Prop :=
  c ∈ [Instr.lineView f, .zoneView f, .formerView f, .queueView f, .panelView f, .mapView f, .spliceView f, .portView f]

/-- The field of a step record that PATTERN_END finds out of range, by its code: 1 kind, 2 width, 3 depth, 4 repeat, 5
press time, 6 grade; fields the kind does not use never fail (R36, R40). -/
def failsAt (r : StepRec) : Nat → Prop
  | 1 => 3 < r.kind
  | 2 => r.width < 20 ∨ 800 < r.width
  | 3 => r.kind ≠ 3 ∧ 300 < r.depth
  | 4 => r.rep < 1 ∨ 255 < r.rep
  | 5 => r.kind ≠ 3 ∧ (r.press < 20 ∨ 2000 < r.press)
  | 6 => r.kind ≤ 1 ∧ (r.grade < -50 ∨ 50 < r.grade)
  | _ => False

/-- The `k`-th id counted upward from `n`, wrapping from 255 to 1 (R44). -/
def idCandidate (n : Nat) : Nat → Nat
  | 0 => n
  | k + 1 => if idCandidate n k = 255 then 1 else idCandidate n k + 1

/-- The little-endian number in `n` bytes of a payload from byte `i` on (section 5.5 of 00_scope.md). -/
def field (pl : List Byte) (i n : Nat) : Nat := leNat ((pl.drop i).take n)

/-- The condition of a geometry setting: the line STOPPED, the panel table and the web map empty. -/
def Bare (s : State) : Prop := s.sup.line = .stopped ∧ s.tracker.table = [] ∧ s.tracker.map = []

/-- The former is HELD with hold reason STARVED or TRACK_FULL (R63). -/
def heldAtBoundary (f : Former) : Bool :=
  decide (f.state = .held) && (decide (f.hold = .starved) || decide (f.hold = .trackFull))

/-- A zone without what a target change or a settling gives it: two zones with the same are alike in all else. -/
def zoneWork (q : Zone) : Zone := { q with target := 0, blank := 0, settle := 0 }

/-- The target a recipe gives a zone at a speed: compensated when the zone is used, T_standby when not (R108, R134). -/
def runTarget (r : Recipe) (v : Nat) (z : Fin 4) : Nat :=
  if r.inc.get z = 0 then r.tStandby else r.tBase + r.inc.get z * min v r.vNom / r.vNom

/-- Where an encoder's levels stand in the cycle it runs through when A leads B (R81, R85). -/
def phase : Bool → Bool → Nat
  | false, false => 0
  | true, false => 1
  | true, true => 2
  | false, true => 3

/-- One input changed: the count is forward when the levels moved on in the cycle, the other way round for a reversed
encoder (R81, R85). -/
def countsForward (reversed oldA oldB a b : Bool) : Bool :=
  decide (phase a b = (phase oldA oldB + 1) % 4) != reversed

/-- The zone a cell lies in (R126). -/
def zoneOfCell (t : TunnelSettings) (i : Nat) : Fin 4 :=
  if i < t.b1 then 0 else if i < t.b2 then 1 else if i < t.b3 then 2 else 3

/-- The duty after a regulation step with a tunnel recipe (R113). -/
def nextDuty (cap : Nat) (q : Zone) : Nat :=
  min cap ((q.duty : Int) + (((q.target : Int) - (q.measured : Int)) * (q.gain : Int)).tdiv 16).toNat

/-- SOFT, REGULATING or PURGE. -/
def atWork (st : ZoneState) : Prop := st = .soft ∨ st = .regulating ∨ st = .purge

/-! ### What the masters read (the view tables) -/

/-- Little-endian fields of one to four bytes (section 5.5 of 00_scope.md). -/
def le1 (v : Nat) : List Byte := [BitVec.ofNat 8 v]
def le2 (v : Nat) : List Byte := [BitVec.ofNat 8 v, BitVec.ofNat 8 (v / 256)]
def le3 (v : Nat) : List Byte := [BitVec.ofNat 8 v, BitVec.ofNat 8 (v / 256), BitVec.ofNat 8 (v / 65536)]
def le4 (v : Nat) : List Byte :=
  [BitVec.ofNat 8 v, BitVec.ofNat 8 (v / 256), BitVec.ofNat 8 (v / 65536), BitVec.ofNat 8 (v / 16777216)]

/-- The code of a value that a table numbers from 0 on: its place in the table's list. -/
def codeIn {α : Type} [DecidableEq α] (l : List α) (x : α) : Nat := l.idxOf x

/-- The weight of a flag that is set. -/
def wt (b : Bool) (w : Nat) : Nat := if b = true then w else 0

/-- Line-state codes (R25). -/
def lineCode (l : LineState) : Nat := codeIn [.stopped, .warming, .lowering, .running, .holding, .stopping, .tripped] l

/-- A recipe index, 255 for none (R188). -/
def recipeCode (i : Option (Fin 4)) : Nat :=
  match i with
  | none => 255
  | some k => k.val

/-- The monitor flags byte of a zone (R151). -/
def monitorFlagByte (m : Monitor) (z : Fin 4) : Nat :=
  let k := m.zones.get z
  wt k.warn 1 + wt k.retry 2 + wt (decide (k.hold ≠ .none)) 4 + wt k.targetChanged 8 + wt k.probeFlagged 16 +
    wt (decide (m.test = some z)) 32 + wt (decide (k.blank ≠ 0)) 64

/-- The LINE view, byte for byte (section 10.10). -/
def lineLayout (s : State) : List Byte :=
  let v := s.sup
  le1 (lineCode v.line) ++ le1 (lineCode v.prev) ++
  le1 (wt v.causes.starved 1 + wt v.causes.trackFull 2 + wt v.causes.heat 4) ++
  le1 (match v.tripCause with
    | none => 0
    | some c => 1 + codeIn [.estop, .webBreak, .webReverse, .feedTimeout, .bladeJam, .hoodFault, .rollOut] c) ++
  le1 (wt v.stopPending 2) ++ le1 (codeIn [.up, .lowering, .down, .raising] v.hood) ++
  le1 (wt v.hoodDown 1 + wt v.hoodTimer.isSome 2 + wt v.hoodDelayTimer.isSome 4 + wt s.monitor.estop 8 +
    wt s.settledReported 16 + wt v.spliceLimit 32 + wt v.formerLimit.isSome 64) ++
  le2 v.vReq ++ le2 v.set.vMax ++ le2 v.vPlan ++ le2 v.vPlanRun ++ le2 v.vHeat ++ le2 v.vRef ++ le2 v.speedOut ++
  le2 (v.formerLimit.getD 0) ++ le1 (recipeCode s.dose.tunnelRecipe) ++ le1 (recipeCode s.dose.pendingRecipe) ++
  le1 (monitorFlagByte s.monitor 0) ++ le1 (monitorFlagByte s.monitor 1) ++ le1 (monitorFlagByte s.monitor 2) ++
  le1 (monitorFlagByte s.monitor 3) ++ le2 v.set.accel

/-- The tunnel recipe's entry (R127). -/
def entryOf (s : State) : Option Recipe :=
  match s.dose.tunnelRecipe with
  | none => none
  | some i => some (s.dose.recipes.get i)

/-- A zone's band status by its code: 0 NONE, 1 IN, 2 HI, 3 LO (R116). -/
def bandCode (s : State) (z : Fin 4) : Nat :=
  let q := s.zones.get z
  match entryOf s with
  | none => 0
  | some r =>
    if q.state = .off then 0
    else if q.target + r.band < q.measured then 2
    else if q.measured + r.band < q.target then 3
    else 1

/-- The ZONE view, byte for byte (section 6.10). -/
def zoneLayout (s : State) (z : Fin 4) : List Byte :=
  let q := s.zones.get z
  let settled : Bool := match entryOf s with
    | none => false
    | some r => decide (r.settle ≤ q.settle)
  le1 z.val ++ le1 (codeIn [.off, .soft, .regulating, .purge, .tripped, .probeFault] q.state) ++
  le1 (wt q.armed 1 + wt q.valve 2 + wt (decide (q.state = .purge)) 4 + wt q.held 8 + wt (decide (q.blank ≠ 0)) 16 +
    wt (decide (bandCode s z = 1 ∧ q.blank = 0 ∧ (q.state = .soft ∨ q.state = .regulating))) 32 + wt settled 64) ++
  le1 (bandCode s z) ++ le2 q.target ++ le2 q.measured ++ le2 q.duty ++ le2 q.windowDuty ++ le1 q.gain ++
  le2 q.dutyMax ++ le2 q.softDuty ++ le1 q.softTime ++ le1 q.purgeDelay ++ le1 q.purgeTime ++ le1 q.blank ++
  le1 q.soft ++ le1 q.hi ++ le1 q.purge ++ le1 q.settle

/-- Former states in the order of the FORMER view. -/
def formerStates : List FormerState :=
  [.idle, .lead, .wait, .feed, .tuck, .press, .retract, .flat, .tail, .bridge, .held]

/-- The FORMER view, byte for byte (section 4.10), with the limit the former passes. -/
def formerLayout (limit : Option Nat) (f : Former) : List Byte :=
  le1 (codeIn formerStates f.state) ++
  le1 (match f.resume with
    | none => 255
    | some r => codeIn formerStates r) ++
  le1 (codeIn [.none, .stoppedMid, .starved, .trackFull] f.hold) ++ le1 (f.step.getD 255) ++ le1 f.rep ++ le2 f.depth ++
  le4 f.target.toNat ++ le4 (f.trigger.getD 0).toNat ++ le2 f.cIn ++ le2 f.cOut ++ le2 (limit.getD 0) ++
  le2 (f.panel.getD 0).toNat ++
  le1 (wt f.panel.isSome 1 + wt f.trigger.isSome 2 + wt f.late 4 + wt f.retractAfterTrip 8 +
    (match f.bridgeTarget with
     | none => 0
     | some r => 16 * (r.val + 1)))

/-- The QUEUE view, byte for byte (section 3.9, R54). -/
def queueLayout (s : State) : List Byte :=
  let q := s.queue
  let k := q.orders.length
  let received : Nat := match s.store.load with
    | none => 0
    | some i => (slotAt s i).steps.length
  le1 k ++ le1 (k - wt q.active 1) ++ le1 (if k = 8 ∧ s.store.load ≠ none then received else q.low) ++
  le1 (match s.store.load with
    | none => 255
    | some i => i.val) ++
  (q.orders.zipIdx.flatMap fun x =>
    le1 x.1.id ++ le1 x.1.pattern.val ++ le2 x.1.count ++ le2 x.1.done ++
      le1 (x.1.recipe.val + wt (q.active && decide (x.2 = 0)) 4 + wt x.1.cancel 8 + wt x.1.frozen 16)) ++
  (if s.store.load ≠ none ∧ k < 8 then le1 received else [])

/-- The panel record layout, byte for byte (section 5.9). -/
def recordLayout (r : PanelRec) : List Byte :=
  le2 r.number.toNat ++ le1 r.orderId ++ le1 r.pattern.val ++ le1 r.recipe.val ++
  le1 (codeIn [.forming, .travelling, .waitingReport, .reported] r.state) ++
  le1 (wt r.joint 1 + wt r.jointUnconfirmed 2 + wt r.aborted 4 + wt r.cutThrough 8 + wt r.pInEnd.isSome 16) ++
  le4 r.pInStart.toNat ++ le4 r.pOutStart.toNat ++ le4 (r.pInEnd.getD 0).toNat ++ le4 (r.pOutEnd.getD 0).toNat ++
  le2 r.formed ++ le2 r.clamped ++ le2 r.lateStrokes ++ le2 r.judged ++ le3 r.doseMin ++ le3 r.doseMax ++
  le2 r.peak ++ le1 (codeIn [.none, .good, .under, .over, .unverified, .scorch] r.verdict)

/-- The MAP view, byte for byte (section 5.9). -/
def mapLayout (s : State) : List Byte :=
  let t := s.tracker
  le4 t.pIn.toNat ++ le4 t.pOut.toNat ++ le4 t.high.toNat ++ le1 t.map.length ++ le1 t.table.length ++
  le1 t.reports.length ++ le1 t.joints.length ++ le4 t.begun.toNat ++ le4 t.taken.toNat ++ le1 t.droppedMarks ++
  le1 t.droppedCaptures ++
  le1 (wt t.bladeHome.level 1 + wt t.hoodUp.level 2 + wt t.hoodDown.level 4 + wt t.jointDetector.level 8 +
    wt (s.pins.estop == t.set.estopPol) 16) ++
  ((t.map.take 4).flatMap fun m =>
    le1 (codeIn [.panelStart, .panelEnd, .joint, .bridgeStart, .bridgeEnd] m.kind + wt m.panel.isSome 128) ++
      le4 m.pos.toNat ++ le2 (m.panel.getD 0).toNat)

/-- Where a roll runs out, and the deadline of a splice (R153). -/
def runsOutAt (r : RollStatus) : Pos := r.pStatus + BitVec.ofNat 32 r.remaining
def deadlineAt (g : RollGeometry) (r : RollStatus) : Pos := runsOutAt r - BitVec.ofNat 32 g.reserve

/-- The SPLICE view, byte for byte (section 9.8); `a` and `b` stand where the roll status is unknown (log 4). -/
def spliceLayout (s : State) (a b : Pos) : List Byte :=
  let p := s.roll.planner
  let c := s.roll.cut
  le1 (codeIn [.idle, .planning, .scheduled, .approach, .fired] p.state) ++
  le1 (codeIn [.idle, .waiting, .fired] c.state) ++
  le1 (wt p.status.isSome 1 + wt (p.status.any fun r => r.lowRaised) 2 + wt p.jointDue.isSome 4 +
    wt s.sup.spliceLimit 8 + wt p.pulse.isSome 16 + wt c.pulse.isSome 32 + wt p.forced 64 + wt p.firedSinceArm 128) ++
  (match p.status with
   | none => le4 0 ++ le4 a.toNat ++ le4 b.toNat ++ le4 0
   | some r =>
     le4 r.pStatus.toNat ++ le4 r.remaining ++ le4 (deadlineAt s.roll.geo r).toNat ++
       le4 (if reached s.tracker.pIn (runsOutAt r) = true then 0 else (runsOutAt r - s.tracker.pIn).toNat)) ++
  le4 (p.pFire.getD 0).toNat ++
  (match p.stretch with
   | none => le4 0 ++ le4 0
   | some x => le4 x.s.toNat ++ le4 (x.e.getD 0).toNat) ++
  le1 (p.freeze.getD 0) ++ le4 (if p.state = .fired then p.expected.getD 0 else 0).toNat ++
  le4 (p.jointDue.getD 0).toNat ++ le4 (c.point.getD 0).toNat ++
  le2 (match c.target with
    | none => 0
    | some x => x.panel.toNat) ++
  le1 (wt c.target.isSome 1 + wt c.midpoint 2 + wt c.fired 4 +
    wt (match p.stretch with
      | none => false
      | some x => decide (x.e = none)) 8) ++
  le1 (codeIn [.noneMade, .candidate, .noCandidate, .noFreeMarks] p.outcome)

/-! ### The former's lengths, strokes and speed limit (R59 to R73) -/

/-- The pattern of the order a boundary test would examine; without an order an empty slot. -/
def patternAhead (s : State) : Slot :=
  match s.queue.orders with
  | [] => ⟨.empty, 0, 0, 0, [], 0⟩
  | o :: _ => slotAt s o.pattern

/-- D + r × G, the depth of a knife step's repeat before it is brought into 0..300 (R59). -/
def pleatSum (st : StepRec) (r : Nat) : Int := (st.depth : Int) + (r : Int) * st.grade

/-- The graded depth of repeat `r` (R59). -/
def pleatDepth (st : StepRec) (r : Nat) : Nat :=
  if st.kind ≤ 1 then (if pleatSum st r < 0 then 0 else if 300 < pleatSum st r then 300 else (pleatSum st r).toNat)
  else st.depth

/-- The sum of a knife step's repeat lies outside 0..300: a clamped pleat (R59). -/
def pleatClamped (st : StepRec) (r : Nat) : Bool :=
  decide (st.kind ≤ 1 ∧ (pleatSum st r < 0 ∨ 300 < pleatSum st r))

/-- The flat length of a stroke at a depth (R59). -/
def pleatLength (st : StepRec) (depth : Nat) : Nat := st.width + (if st.kind ≤ 1 then 2 else 4) * depth

/-- The infeed count of a length and the carry it leaves (R60). -/
def countOf (f : Former) (l : Nat) : Nat := (l * f.set.inNum + f.cIn) / f.set.inDen
def carryOf (f : Former) (l : Nat) : Nat := (l * f.set.inNum + f.cIn) % f.set.inDen

/-- The outfeed count of a step's width (R61). -/
def advanceOf (f : Former) (st : StepRec) : Nat := (st.width * f.set.outNum + f.cOut) / f.set.outDen

/-- The infeed count of the stroke of repeat `r` (R59, R60). -/
def strokeCount (f : Former) (st : StepRec) (r : Nat) : Nat := countOf f (pleatLength st (pleatDepth st r))

/-- The stroke of the former's step and repeat has started, from WAIT or late (R59 to R61, R66, R67, R70): trigger
advanced, a late stroke recorded, FEED entered.  A flat count of 0 ends FEED at entry, and a trigger already reached
makes the next stroke late. -/
def strokeStarted (st : StepRec) (s : State) : State :=
  let f := s.former
  let n := strokeCount f st f.rep
  let depth := pleatDepth st f.rep
  let next := f.trigger.map fun x => x + BitVec.ofNat 32 (advanceOf f st)
  { s with
    former := { f with
      state := if n = 0 then .tuck else .feed, depth := depth, bladeSide := decide (st.kind = 1),
      target := s.tracker.pIn + BitVec.ofNat 32 n, cIn := carryOf f (pleatLength st depth),
      trigger := next, cOut := (st.width * f.set.outNum + f.cOut) % f.set.outDen,
      late := next.any (reached s.tracker.pOut),
      timer := some (if n = 0 then f.set.tuck else 2 * ((n + f.set.f - 1) / f.set.f) + 50) },
    tracker := { s.tracker with
      table := s.tracker.table.map fun r =>
        if f.panel = some r.number then
          { r with
            lateStrokes := if f.late = true then min 65535 (r.lateStrokes + 1) else r.lateStrokes,
            clamped := if pleatClamped st f.rep = true then min 65535 (r.clamped + 1) else r.clamped }
        else r },
    router := if f.late = true then s.router.map (notePort .strokeLate (le2 (f.panel.getD 0).toNat)) else s.router }

/-- A length of count `n` is neither ended at entry nor half way round the positions. -/
def lengthRuns (n : Nat) : Prop := 0 < n ∧ n < 2 ^ 31

/-- TAIL has been entered (R65, R69). -/
def tailEntered (s : State) : State :=
  let f := s.former
  let l := (patternAhead s).tail
  { s with former := { f with
    state := .tail, step := none, trigger := none, target := s.tracker.pIn + BitVec.ofNat 32 (countOf f l),
    cIn := carryOf f l } }

/-- A FLAT step has been entered (R65, R69). -/
def flatEntered (i : Nat) (st : StepRec) (s : State) : State :=
  let f := s.former
  { s with former := { f with
    state := .flat, step := some i, rep := 0, trigger := none,
    target := s.tracker.pIn + BitVec.ofNat 32 (countOf f st.width), cIn := carryOf f st.width } }

/-- The step at index `i` has been entered from LEAD or FLAT: a pleated one starts its first stroke at once, in time
(R61, R65, R66). -/
def stepEntered (i : Nat) (s : State) : State :=
  match (patternAhead s).steps[i]? with
  | none => tailEntered s
  | some st =>
    if st.kind = 3 then flatEntered i st s
    else
      strokeStarted st { s with former := { s.former with
        state := .wait, step := some i, rep := 0, trigger := some s.tracker.pOut, late := false } }

/-- A stroke's count is less than half way round the positions. -/
def strokeRuns (f : Former) (st : StepRec) (r : Nat) : Prop := strokeCount f st r < 2 ^ 31

/-- The length that entering step `i` begins runs on. -/
def stepRuns (i : Nat) (s : State) : Prop :=
  match (patternAhead s).steps[i]? with
  | none => lengthRuns (countOf s.former (patternAhead s).tail)
  | some st => if st.kind = 3 then lengthRuns (countOf s.former st.width) else strokeRuns s.former st 0

/-- The former has a pleat more and its phase timer stopped: RETRACT has ended (R69). -/
def pleatFormed (s : State) : State :=
  { s with
    former := { s.former with timer := none },
    tracker := { s.tracker with
      table := s.tracker.table.map fun r =>
        if s.former.panel = some r.number then { r with formed := min 65535 (r.formed + 1) } else r } }

/-- Where the former stands after a stroke's RETRACT end, before any stroke starts (the table of R69). -/
def afterPleat (i : Nat) (st : StepRec) (s : State) : State :=
  if s.former.rep + 1 < st.rep then
    { s with former := { s.former with state := .wait, rep := s.former.rep + 1 } }
  else
    match (patternAhead s).steps[i + 1]? with
    | none => tailEntered s
    | some nx =>
      if nx.kind = 3 then flatEntered (i + 1) nx s
      else { s with former := { s.former with state := .wait, step := some (i + 1), rep := 0 } }

/-- The trigger the former waits for has been reached. -/
def triggerMet (s : State) : Prop := ∃ x, s.former.trigger = some x ∧ reached s.tracker.pOut x = true

/-- Nothing the former waits for stands at the present positions and levels (R65, R66, R67, R69, R70, R74). -/
def FormerRests (s : State) : Prop :=
  match s.former.state with
  | .idle | .bridge => True
  | .held => ¬(s.former.resume = some .wait ∧ s.former.reachedInStop = false ∧ triggerMet s)
  | .lead | .flat | .tail => reached s.tracker.pIn s.former.target = false
  | .wait | .tuck | .press => ¬triggerMet s
  | .feed => reached s.tracker.pIn s.former.target = false ∧ ¬triggerMet s
  | .retract => s.tracker.bladeHome.level = false ∧ ¬triggerMet s

/-- The speed limit of a pleated step (R72). -/
def stepSpeed (c : FormerSettings) (st : StepRec) : Nat :=
  let deep := if st.kind ≤ 1 ∧ 0 < st.grade then pleatDepth st (st.rep - 1) else pleatDepth st 0
  let wOut := st.width * c.outNum / c.outDen
  let flatIn := pleatLength st deep * c.inNum / c.inDen
  let time := (flatIn + c.f - 1) / c.f + c.tuck + st.press + c.retractAllow
  max 1 (min 65535 (wOut * 100 / time))

/-- The limit the former passes the Supervisor, none outside pleated steps (R73). -/
def formerSpeed (s : State) : Option Nat :=
  let f := s.former
  let pleated : Bool := decide (f.state ∈ [.wait, .feed, .tuck, .press, .retract] ∨
    f.state = .held ∧ f.resume = some .wait)
  match pleated, f.step with
  | true, some i =>
    match (patternAhead s).steps[i]?, (patternAhead s).steps[i + 1]? with
    | some a, some b => some (if b.kind = 3 then stepSpeed f.set a else min (stepSpeed f.set a) (stepSpeed f.set b))
    | some a, none => some (stepSpeed f.set a)
    | none, _ => none
  | _, _ => none

/-- `v` is the heat limit: v_max without a used zone, otherwise the least of the used zones' limits, at most 65535
(R135). -/
def IsHeatLimit (s : State) (v : Nat) : Prop :=
  match s.dose.tunnelRecipe with
  | none => v = s.sup.set.vMax
  | some i =>
    let r := s.dose.recipes.get i
    let limit (z : Fin 4) : Nat :=
      if (s.zones.get z).state = .probeFault then 0
      else r.vNom * ((s.zones.get z).measured - r.tBase) / r.inc.get z
    ((∀ z, r.inc.get z = 0) → v = s.sup.set.vMax) ∧
      ((∃ z, r.inc.get z ≠ 0) →
        v ≤ 65535 ∧ (∀ z, r.inc.get z ≠ 0 → v ≤ limit z) ∧
          (v = 65535 ∨ ∃ z, r.inc.get z ≠ 0 ∧ v = limit z))

/-! ### Panels and cells -/

/-- A record's final report: UNVERIFIED when no cell was judged, else its verdict (R95). -/
def finalReport (r : PanelRec) : PanelRec :=
  { r with verdict := if r.judged = 0 then .unverified else r.verdict, state := .reported }

/-- A web position lies in a record's panel (R133). -/
def inPanel (x : Pos) (r : PanelRec) : Prop :=
  reached x r.pOutStart = true ∧ ∀ e, r.pOutEnd = some e → after e x = true

/-- The verdict of a cell, the first test that applies (R132). -/
def verdictOf (r : Recipe) (c : Cell) : Verdict :=
  if c.unverified = true then .unverified
  else if r.tScorch < c.peak then .scorch
  else if r.dMax < c.dose then .over
  else if c.dose < r.dMin then .under
  else .good

/-- The rank of a verdict (R133). -/
def rankAmong (v : Verdict) : Nat := codeIn [.none, .good, .under, .over, .unverified, .scorch] v

/-- A record with a judged cell folded in (R133). -/
def foldedInto (v : Verdict) (c : Cell) (r : PanelRec) : PanelRec :=
  { r with
    verdict := if rankAmong r.verdict < rankAmong v then v else r.verdict,
    doseMin := if r.judged = 0 ∨ c.dose < r.doseMin then c.dose else r.doseMin,
    doseMax := if r.judged = 0 ∨ r.doseMax < c.dose then c.dose else r.doseMax,
    peak := if r.peak < c.peak then c.peak else r.peak, judged := min 65535 (r.judged + 1) }

/-- The tunnel holds nothing of its recipe any more (R128). -/
def tunnelDrained (s : State) : Prop :=
  ∀ i, s.dose.tunnelRecipe = some i → ∀ r ∈ s.tracker.table, r.recipe = i →
    r.state ≠ .forming ∧ ∃ e, r.pOutEnd = some e ∧
      reached s.tracker.pOut
        (e + BitVec.ofNat 32 (s.dose.tunnel.lTe + (s.dose.tunnel.n + 1) * s.dose.tunnel.pitch)) = true

/-- The target of a zone in a line state under a recipe (R108, R134). -/
def targetIn (r : Recipe) (l : LineState) (v : Nat) (z : Fin 4) : Nat :=
  if l = .stopped ∨ l = .tripped then r.tStandby else runTarget r v z

/-- A zone handed a target: another target blanks it, an equal one changes nothing (R109). -/
def handed (target : Nat) (q : Zone) : Zone :=
  if q.target = target then q else { q with target := target, blank := 5, settle := 0 }

/-- The monitor of a zone handed a target (R139, R142). -/
def handedMonitor (target : Nat) (q : Zone) (k : ZoneMonitor) : ZoneMonitor :=
  if q.target = target then k
  else { k with blank := k.blankSet, targetChanged := k.targetChanged || decide (k.hold = .target) }

/-! ### Joints -/

/-- The joint list's work at p_in: entries that reach the former turn ENTERING, each with a JOINT mark while there is
room for one; a panel in a pleated step is flagged; entries whose span has passed leave, and so does a joint due whose
span has passed (R88, R89, R164). -/
def jointsMoved (s : State) : State :=
  let g := s.roll.geo
  let t := s.tracker
  let at' (e : Joint) : Bool := reached t.pIn (e.x + BitVec.ofNat 32 g.lDf)
  let beyond (x : Pos) : Bool := reached t.pIn (x + BitVec.ofNat 32 (g.lDf + g.j))
  let now := t.joints.map fun e => { e with entering := e.entering || at' e }
  let arriving := (t.joints.filter fun e => !e.entering && at' e).length
  let written := min arriving ((if workInFormation s.former then 63 else 64) - t.map.length)
  { s with
    tracker := { t with
      joints := now.filter fun e => !(e.entering && beyond e.x),
      map := t.map ++ List.replicate written ⟨.joint, t.pOut, s.former.panel⟩,
      droppedMarks := if arriving = written then t.droppedMarks else min 255 (t.droppedMarks + (arriving - written)),
      table := t.table.map fun r =>
        if inPleatedStep s.former = true ∧ s.former.panel = some r.number then
          { r with
            joint := r.joint || now.any (fun e => e.entering),
            jointUnconfirmed := r.jointUnconfirmed || now.any (fun e => e.entering && e.unconfirmed) }
        else r },
    roll := { s.roll with planner := { s.roll.planner with
      jointDue := s.roll.planner.jointDue.filter fun x => !beyond x } } }

/-! ### Laws of the part -/

/-- Panels begun are those in the table, in the report queue and taken (R98). -/
def Accounting (s : State) : Prop :=
  s.tracker.begun =
    BitVec.ofNat 32 (s.tracker.table.length + s.tracker.reports.length) + s.tracker.taken

/-- How many orders name a slot (R37). -/
def namers (q : RunQueue) (i : Fin 16) : Nat := (q.orders.filter fun o => decide (o.pattern = i)).length

/-- Reference counts are the orders that name the slot, a referenced slot is VALID, and the load context stands on a
LOADING slot (R35, R37, R42). -/
def References (s : State) : Prop :=
  s.store.slots.length = 16 ∧
    (∀ i : Fin 16, (slotAt s i).refs = namers s.queue i) ∧
    (∀ i : Fin 16, 0 < (slotAt s i).refs → (slotAt s i).state = .valid) ∧
    (∀ i : Fin 16, s.store.load = some i → (slotAt s i).state = .loading)

/-- Ids are 1..255 and unique, the next-id counter is an id, an active order is there, and a counted order in the queue
has panels left (R43, R44, R48). -/
def Orders (s : State) : Prop :=
  (s.queue.orders.map Order.id).Nodup ∧ (∀ o ∈ s.queue.orders, 1 ≤ o.id ∧ o.id ≤ 255) ∧
    (1 ≤ s.queue.nextId ∧ s.queue.nextId ≤ 255) ∧ (s.queue.active = true → s.queue.orders ≠ []) ∧
    (∀ o ∈ s.queue.orders, o.count ≤ 65535 ∧ (o.count = 0 ∨ o.done < o.count))

/-- The collections' capacities (R43, R86, R90, R93, R96), with the place of the map kept for the end mark of a panel or
bridge in formation (R62, R88), of which there is at most one. -/
def Capacity (s : State) : Prop :=
  s.queue.orders.length ≤ 8 ∧ s.tracker.joints.length ≤ 4 ∧ s.tracker.table.length ≤ 32 ∧
    s.tracker.reports.length ≤ 16 ∧
    s.tracker.map.length + (if workInFormation s.former then 1 else 0) ≤ 64 ∧
    ¬(s.former.panel.isSome = true ∧ bridgeRunning s.former = true)

/-- The most a zone's duties may be in its state (R102, R113). -/
def dutyBound (q : Zone) : Nat :=
  match q.state with
  | .off | .purge | .tripped | .probeFault => 0
  | .soft => min q.softDuty q.dutyMax
  | .regulating => q.dutyMax

/-- A zone's valve duty law (R102, R114): duties under the bound of the state, and the valve closed at window duty 0. -/
def zoneDuty (q : Zone) : Prop :=
  q.duty ≤ dutyBound q ∧ q.windowDuty ≤ dutyBound q ∧ (q.valve = true → 0 < q.windowDuty)

def Duty (s : State) : Prop := ∀ z : Fin 4, zoneDuty (s.zones.get z)

/-- The speed law (R186): 0 unless the line is RUNNING with the hood DOWN, the output in step with v_ref, and v_ref
under v_plan_run and v_heat as the last speed update took them. -/
def Speed (s : State) : Prop :=
  (s.sup.line ≠ .running ∨ s.sup.hood ≠ .down → s.sup.vRef = 0) ∧
    s.sup.speedOut = s.sup.vRef * 4095 / s.sup.set.vMax ∧ s.sup.vRef ≤ s.sup.vPlanRun ∧ s.sup.vRef ≤ s.sup.vHeat

/-- The carries stay below their denominators (R60, R61). -/
def Carries (s : State) : Prop := s.former.cIn < s.former.set.inDen ∧ s.former.cOut < s.former.set.outDen

/-- One event record is well kept (R26). -/
def recordKept (e : EventRecord) : Prop :=
  e.level ≤ 3 ∧ e.detail.length = 8 ∧ e.count ≤ 255 ∧ (e.flag = true → 1 ≤ e.count ∧ 1 ≤ e.level) ∧
    (e.flag = false → e.count = 0 ∧ e.detail = List.replicate 8 0)

/-- Every port has a floor 0..3 and twenty well kept records (R26). -/
def Routing (s : State) : Prop :=
  ∀ p : Port, (s.router.get p).floor ≤ 3 ∧ (s.router.get p).records.length = 20 ∧
    ∀ e ∈ (s.router.get p).records, recordKept e

/-- While an entry of the joint list is ENTERING and the former is in a pleated step, the panel in formation carries the
joint flags (R89). -/
def JointFlags (s : State) : Prop :=
  inPleatedStep s.former = true → ∀ e ∈ s.tracker.joints, e.entering = true →
    ∀ n, s.former.panel = some n → ∀ r ∈ s.tracker.table, r.number = n →
      r.joint = true ∧ (e.unconfirmed = true → r.jointUnconfirmed = true)

/-- The ring holds N cells, each dose within 24 bits (R126, R129). -/
def Ring (s : State) : Prop :=
  s.dose.cells.length = s.dose.tunnel.n ∧ 16 ≤ s.dose.tunnel.n ∧
    ∀ c, some c ∈ s.dose.cells → c.dose ≤ 16777215

/-- An occurrence of a kind has reached every port since `s`: noted where the port routes it (R23, R27). -/
def Noted (k : EventKind) (detail : List Byte) (s t : State) : Prop :=
  ∀ q, (t.router.get q).records[eventNumber k]? = (notePort k detail (s.router.get q)).records[eventNumber k]?

/-- No occurrence of a kind since `s`. -/
def Unnoted (k : EventKind) (s t : State) : Prop :=
  ∀ q, (t.router.get q).records[eventNumber k]? = (s.router.get q).records[eventNumber k]?

/-- The settled condition (R120). -/
def settledCondition (s : State) : Bool :=
  match entryOf s with
  | none => false
  | some r => decide (∀ z : Fin 4, r.inc.get z ≠ 0 → r.settle ≤ (s.zones.get z).settle)

/-! ### What a trip leaves -/

/-- The former after a trip's abort (R76). -/
def abortedFormer (home : Bool) (f : Former) : Former :=
  { f with
    state := .idle, resume := none, hold := .none, panel := none, step := none, trigger := none, late := false,
    reachedInStop := false, timer := none, bridgeTarget := none, bladeSide := false,
    retractAfterTrip := f.retractAfterTrip || !home }

/-- A bridge is running at the former, HELD or not (R79). -/
abbrev Bridging (f : Former) : Prop := f.state = .bridge ∨ (f.state = .held ∧ f.resume = some .bridge)

/-- A splice is armed and has not fired (R167). -/
abbrev Armed (p : Planner) : Prop := p.state = .planning ∨ p.state = .scheduled ∨ p.state = .approach

/-- The abort of a panel retires a cancel-pending order (R49). -/
def AbortRetires (s : State) (o : Order) (os : List Order) : Prop :=
  s.former.panel ≠ none ∧ s.queue.orders = o :: os ∧ o.cancel = true

/-- `t` is the line tripped from `s` by a cause: speeds 0, hood commanded up, zones handed T_standby (R183); the former
aborted, its panel closed ABORTED or its bridge ended (R76, R79); a cancel-pending order retired (R49); a splice not yet
fired cancelled (R167); and the events of all this. -/
def TrippedBy (c : TripCause) (s t : State) : Prop :=
  let f := s.former
  let p := s.roll.planner
  let home := t.tracker.bladeHome.level
  let released (os : List Order) : List Order :=
    if Armed p then os.map fun o => { o with frozen := false } else os
  (t.sup.line = .tripped ∧ t.sup.prev = s.sup.line ∧ t.sup.tripCause = some c ∧ t.sup.vPlan = 0 ∧ t.sup.vRef = 0 ∧
    t.sup.speedOut = 0 ∧ t.sup.stopPending = false ∧ t.sup.causes = ⟨false, false, false⟩ ∧ t.sup.hoodDown = false ∧
    t.sup.hood = (if t.tracker.hoodUp.level = true then .up else .raising) ∧ t.sup.hoodDelayTimer = none ∧
    t.monitor.breakTimer = none) ∧
  Noted .trip
    (le1 (1 + codeIn [.estop, .webBreak, .webReverse, .feedTimeout, .bladeJam, .hoodFault, .rollOut] c) ++
      le1 (lineCode s.sup.line) ++ le4 s.tracker.pOut.toNat) s t ∧
  Noted .lineState (le1 6 ++ le1 (lineCode s.sup.line) ++ le1 0) s t ∧
  (∀ z, (t.zones.get z).target = match s.dose.tunnelRecipe with
    | none => 0
    | some i => (s.dose.recipes.get i).tStandby) ∧
  t.former = abortedFormer home f ∧
  (JointFlags s →
    t.tracker = { s.tracker with
      map := s.tracker.map ++ (match f.panel with
          | none => []
          | some n => [⟨.panelEnd, s.tracker.pOut, some n⟩]) ++
        (if Bridging f then [⟨.bridgeEnd, s.tracker.pOut, none⟩] else []),
      table := s.tracker.table.map fun r =>
        if f.panel = some r.number then
          { r with
            pInEnd := some s.tracker.pIn, pOutEnd := some s.tracker.pOut, aborted := true, state := .travelling }
        else r }) ∧
  (t.dose.pendingRecipe = if Bridging f then none else s.dose.pendingRecipe) ∧
  ((∀ o os, ¬AbortRetires s o os) →
    t.queue.active = s.queue.active ∧ t.queue.orders = released s.queue.orders) ∧
  (∀ o os, AbortRetires s o os →
    t.queue.active = false ∧ t.queue.orders = released os ∧
      Noted .orderDone (le1 o.id ++ le1 o.pattern.val ++ le2 o.done ++ le1 1) s t) ∧
  (Armed p →
    t.roll.planner.state = .idle ∧ t.roll.planner.pFire = none ∧ t.roll.planner.stretch = none ∧
      t.roll.planner.freeze = none ∧ t.roll.planner.jointDue = none ∧ t.sup.spliceLimit = false ∧
      Noted .spliceFailed (le1 2 ++ le4 (p.pFire.getD 0).toNat) s t) ∧
  (¬Armed p → t.roll.planner.state = p.state ∧ t.roll.planner.pFire = p.pFire)

/-! ### What a panel boundary leads to -/

/-- The former with the first length of a new panel begun (R64). -/
def leadEntered (s : State) : Former :=
  { s.former with
    state := .lead, hold := .none, resume := none, panel := some s.tracker.nextPanel, step := none,
    target := s.tracker.pIn + BitVec.ofNat 32 (countOf s.former (patternAhead s).lead),
    cIn := carryOf s.former (patternAhead s).lead }

/-- The tracker with a new panel of an order begun: its mark, its record, its number (R64, R93). -/
def panelBegun (o : Order) (t : Tracker) : Tracker :=
  { t with
    map := t.map ++ [⟨.panelStart, t.pOut, some t.nextPanel⟩],
    table := t.table ++
      [{ number := t.nextPanel, orderId := o.id, pattern := o.pattern, recipe := o.recipe, pInStart := t.pIn,
         pOutStart := t.pOut, pInEnd := none, pOutEnd := none, formed := 0, clamped := 0, lateStrokes := 0,
         joint := false, jointUnconfirmed := false, aborted := false, cutThrough := false, judged := 0, doseMin := 0,
         doseMax := 0, peak := 0, verdict := .none, state := .forming }],
    nextPanel := t.nextPanel + 1, begun := t.begun + 1 }

/-- The boundary test has found no work or no room: HELD for a reason, which holds the line (R62, R180).  With a hood delay
of 0 the delay timer stays stopped, the model's reading (log 38). -/
def HeldFor (h : HoldReason) (c : HoldCauses) (u t : State) : Prop :=
  t.former = { u.former with state := .held, hold := h, resume := none } ∧ t.tracker = u.tracker ∧
    t.queue = u.queue ∧ t.sup.line = .holding ∧ t.sup.prev = .running ∧ t.sup.causes = c ∧ t.sup.vPlan = 0 ∧
    t.sup.vRef = 0 ∧ t.sup.speedOut = 0 ∧
    t.sup.hoodDelayTimer = (if u.sup.set.hoodDelay = 0 then none else some (u.sup.set.hoodDelay * 100)) ∧
    Noted .hold (le1 (wt c.starved 1 + wt c.trackFull 2)) u t

/-- `t` is what the boundary test makes of `u`, an IDLE former on a RUNNING line without a hold cause (the table of R62;
R64, R77).  A bridge whose tunnel is drained at once, and a lead without a length, are not told. -/
def BoundaryTaken (u t : State) : Prop :=
  let marks := 64 - u.tracker.map.length
  (u.queue.orders = [] →
    HeldFor .starved ⟨true, false, false⟩ u t ∧ Noted .runQueueEmpty [] u t) ∧
  ∀ o os, u.queue.orders = o :: os →
    (u.dose.tunnelRecipe ≠ some o.recipe → marks < 2 → HeldFor .trackFull ⟨false, true, false⟩ u t) ∧
    (u.dose.tunnelRecipe ≠ some o.recipe → 2 ≤ marks → ¬tunnelDrained u →
      t.former = { u.former with
        state := .bridge, hold := .none, resume := none, bladeSide := false, bridgeTarget := some o.recipe } ∧
      t.tracker = { u.tracker with map := u.tracker.map ++ [⟨.bridgeStart, u.tracker.pOut, none⟩] } ∧
      t.dose = { u.dose with pendingRecipe := some o.recipe } ∧ t.queue.active = u.queue.active ∧
      t.sup.line = .running) ∧
    (u.dose.tunnelRecipe = some o.recipe → 32 ≤ u.tracker.table.length ∨ marks < 4 →
      HeldFor .trackFull ⟨false, true, false⟩ u t) ∧
    (u.dose.tunnelRecipe = some o.recipe → u.tracker.table.length < 32 → 4 ≤ marks →
      lengthRuns (countOf u.former (patternAhead u).lead) →
      t.former = leadEntered u ∧ t.tracker = panelBegun o u.tracker ∧ t.queue.active = true ∧ t.sup.line = .running)

/-- The panel in formation has ended at TAIL's end: its mark and end positions, the former at its boundary, the active
order's count, with which the order may retire (R48, R71). -/
def panelEnded (n : BitVec 16) (s : State) : State :=
  { s with
    former := { s.former with state := .idle, panel := none, step := none },
    tracker := { s.tracker with
      map := s.tracker.map ++ [⟨.panelEnd, s.tracker.pOut, some n⟩],
      table := s.tracker.table.map fun r =>
        if r.number = n then
          { r with pInEnd := some s.tracker.pIn, pOutEnd := some s.tracker.pOut, state := .travelling }
        else r },
    queue := match s.queue.orders with
      | [] => s.queue
      | o :: os =>
        let o' : Order := { o with done := min 65535 (o.done + 1) }
        if (o.count ≠ 0 ∧ o.count ≤ o'.done) ∨ o.cancel = true then { s.queue with orders := os, active := false }
        else { s.queue with orders := o' :: os } }

/-- A bridge has ended, with no joint due: its mark, the former at its boundary (R78). -/
def bridgeEnded (s : State) : State :=
  { s with
    former := { s.former with state := .idle, bridgeTarget := none },
    tracker := { s.tracker with map := s.tracker.map ++ [⟨.bridgeEnd, s.tracker.pOut, none⟩] },
    roll := { s.roll with planner := { s.roll.planner with jointDue := none } } }

/-- `t` is what the end of a stroke of step `st`, at index `i`, makes of `s` once the blade is home: the pleat counted, the
former moved on, or paused while the line stops (R69, R70, R74, R182). -/
def StrokeEnded (i : Nat) (st : StepRec) (s t : State) : Prop :=
  let u := afterPleat i st (pleatFormed s)
  (s.sup.line = .stopping →
    t.former = { u.former with state := .held, hold := .stoppedMid, resume := some u.former.state } ∧
    t.tracker = u.tracker ∧ (s.sup.vRef = 0 → t.sup.line = .stopped ∧ t.sup.prev = .stopping) ∧
    (s.sup.vRef ≠ 0 → t = { u with former := t.former })) ∧
  (s.sup.line ≠ .stopping → ¬(u.former.state = .wait ∧ s.former.late = true) → FormerRests u → t = u) ∧
  (∀ k next, s.sup.line ≠ .stopping → u.former.state = .wait → s.former.late = true ∨ triggerMet u →
    u.former.step = some k → (patternAhead s).steps[k]? = some next → strokeRuns u.former next u.former.rep →
    t = strokeStarted next u)

/-! ### What a splice search finds (R158 to R161) -/

/-- A length ahead of the former, not yet converted: pleated or not, and the order it is formed for. -/
structure LengthAhead where
  pleated : Bool
  length : Nat
  order : Nat
  deriving DecidableEq, Repr

/-- The lengths of a step from a repeat on (R158). -/
def stepLengths (id : Nat) (st : StepRec) (r : Nat) : List LengthAhead :=
  (List.range' r (st.rep - r)).map fun k =>
    if st.kind = 3 then ⟨false, st.width, id⟩ else ⟨true, pleatLength st (pleatDepth st k), id⟩

/-- Steps in index order, then the tail. -/
def stepsAndTail (id : Nat) (sl : Slot) (steps : List StepRec) : List LengthAhead :=
  (steps.flatMap fun st => stepLengths id st 0) ++ [⟨false, sl.tail, id⟩]

/-- A panel's lengths: lead, steps, tail (R158). -/
def panelLengths (id : Nat) (sl : Slot) : List LengthAhead := ⟨false, sl.lead, id⟩ :: stepsAndTail id sl sl.steps

/-- The panels an order gives, one in formation included; a continuous order 64 (R158). -/
def panelsGiven (o : Order) : Nat := if o.count = 0 then 64 else o.count - o.done

/-- So many panels of an order. -/
def orderLengths (s : State) (o : Order) (n : Nat) : List LengthAhead :=
  (List.replicate n (panelLengths o.id (slotAt s o.pattern))).flatten

/-- The lengths of queued orders behind one of a recipe, up to another recipe or a continuous order (R158). -/
def queueLengths (s : State) (recipe : Fin 4) : List Order → List LengthAhead
  | [] => []
  | o :: os =>
    if o.recipe = recipe then
      orderLengths s o (panelsGiven o) ++ (if o.count = 0 then [] else queueLengths s recipe os)
    else []

/-- The state the layout begins from: a HELD former's resume state, IDLE at a boundary (R158). -/
def stateAhead (f : Former) : FormerState := if f.state = .held then f.resume.getD .idle else f.state

/-- The lengths of the present panel behind the one in hand (the table of R158). -/
def restLengths (s : State) (o : Order) : List LengthAhead :=
  let f := s.former
  let sl := slotAt s o.pattern
  let i := f.step.getD 0
  let strokes (r : Nat) : List LengthAhead :=
    (match sl.steps[i]? with
      | none => []
      | some st => stepLengths o.id st r) ++ stepsAndTail o.id sl (sl.steps.drop (i + 1))
  match stateAhead f with
  | .lead => stepsAndTail o.id sl sl.steps
  | .wait => strokes f.rep
  | .feed | .tuck | .press | .retract | .flat => strokes (f.rep + 1)
  | .idle | .tail | .bridge | .held => []

/-- A length converted to infeed counts. -/
structure SpanAhead where
  pleated : Bool
  count : Nat
  order : Nat
  deriving DecidableEq, Repr

/-- Lengths converted with the carry moving from length to length (R60, R158). -/
def converted (c : FormerSettings) : Nat → List LengthAhead → List SpanAhead
  | _, [] => []
  | carry, x :: xs =>
    ⟨x.pleated, (x.length * c.inNum + carry) / c.inDen, x.order⟩ ::
      converted c ((x.length * c.inNum + carry) % c.inDen) xs

/-- The length in hand, from p_in to its target, which is converted already (R158). -/
def spanInHand (s : State) (id : Nat) : List SpanAhead :=
  let f := s.former
  let rest := if reached s.tracker.pIn f.target = true then 0 else (f.target - s.tracker.pIn).toNat
  match stateAhead f with
  | .lead | .flat | .tail => [⟨false, rest, id⟩]
  | .feed => [⟨true, rest, id⟩]
  | .idle | .wait | .tuck | .press | .retract | .bridge | .held => []

/-- Everything laid out ahead of the former (R158). -/
def spansAhead (s : State) : List SpanAhead :=
  match s.queue.orders with
  | [] => []
  | o :: os =>
    if stateAhead s.former = .idle then
      if s.dose.tunnelRecipe = some o.recipe then
        converted s.former.set s.former.cIn (queueLengths s o.recipe (o :: os))
      else []
    else
      let more := if o.cancel = true then 0 else panelsGiven o - 1
      let behind := if o.count = 0 ∧ o.cancel = false then [] else queueLengths s o.recipe os
      spanInHand s o.id ++
        converted s.former.set s.former.cIn (restLengths s o ++ orderLengths s o more ++ behind)

/-- A maximal run of unpleated lengths: its start, its counts and the order of its last length (R158). -/
structure StretchAhead where
  start : Pos
  count : Nat
  order : Nat
  deriving DecidableEq, Repr

/-- The stretches of spans laid out from a position on; `run` is the stretch in hand.  A span of count 0 keeps it joined
(R158), a pleated one too, the model's reading (log 18). -/
def stretchesFrom : Option StretchAhead → Pos → List SpanAhead → List StretchAhead
  | run, _, [] => run.toList
  | none, p, x :: xs =>
    stretchesFrom (if x.pleated = true then none else some ⟨p, x.count, x.order⟩) (p + BitVec.ofNat 32 x.count) xs
  | some r, p, x :: xs =>
    if x.pleated = true then
      if x.count = 0 then stretchesFrom (some r) p xs
      else r :: stretchesFrom none (p + BitVec.ofNat 32 x.count) xs
    else stretchesFrom (some ⟨r.start, r.count + x.count, x.order⟩) (p + BitVec.ofNat 32 x.count) xs

/-- The fire position of a stretch (R159). -/
def fireAt (g : RollGeometry) (x : StretchAhead) : Pos :=
  x.start + BitVec.ofNat 32 ((x.count - g.j) / 2) - BitVec.ofNat 32 g.lSf

/-- A stretch qualifies, and its fire position lies from p_in + A to the deadline (R159, R160). -/
def mayChoose (s : State) (deadline : Pos) (x : StretchAhead) : Bool :=
  decide (s.roll.geo.c ≤ x.count) &&
    (reached (fireAt s.roll.geo x) (s.tracker.pIn + BitVec.ofNat 32 s.roll.geo.a) &&
      reached deadline (fireAt s.roll.geo x))

/-- The search's choice: the first stretch that may be chosen; in BRIDGE the open stretch (R159, R160). -/
def choiceAhead (s : State) (deadline : Pos) : Option Candidate :=
  if stateAhead s.former = .bridge then
    let p := s.tracker.pIn + BitVec.ofNat 32 s.roll.geo.a
    if reached deadline p = true then some ⟨p, ⟨p + BitVec.ofNat 32 s.roll.geo.lSf, none⟩, none⟩ else none
  else
    ((stretchesFrom none s.tracker.pIn (spansAhead s)).find? (mayChoose s deadline)).map fun x =>
      ⟨fireAt s.roll.geo x, ⟨x.start, some (x.start + BitVec.ofNat 32 x.count)⟩, some x.order⟩

/-- What a search under a roll status finds, with too few free marks nothing (R160). -/
def searchResult (s : State) (r : RollStatus) : SearchOutcome × Option Candidate :=
  if 64 - s.tracker.map.length < 2 then (.noFreeMarks, none)
  else
    match choiceAhead s (deadlineAt s.roll.geo r) with
    | none => (.noCandidate, none)
    | some c => (.candidate, some c)

/-- The orders with those through an id frozen, the others not; with no id none (R53). -/
def frozenThrough (id : Option Nat) (os : List Order) : List Order :=
  match id with
  | none => os.map fun o => { o with frozen := false }
  | some n => os.mapIdx fun k o => { o with frozen := decide (k ≤ os.findIdx fun q => q.id == n) }

/-- SCHEDULED on a choice: fire position, stretch, freeze, joint due, SPLICE_SCHEDULED of kind 0 (R160). -/
def scheduledOn (c : Candidate) (s : State) : State :=
  { s with
    queue := { s.queue with orders := frozenThrough c.order s.queue.orders },
    roll := { s.roll with planner := { s.roll.planner with
      state := .scheduled, forced := false, pFire := some c.pFire, stretch := some c.stretch, freeze := c.order,
      jointDue := some (c.pFire + BitVec.ofNat 32 s.roll.geo.lSf - BitVec.ofNat 32 s.roll.geo.lDf) } },
    router := s.router.map (notePort .spliceScheduled (posBytes c.pFire ++ [0])) }

/-- APPROACH at once when p_in is at or after p_fire − A (R160, R162). -/
def approachedBy (p : Pos) (s : State) : State :=
  if reached s.tracker.pIn (p - BitVec.ofNat 32 s.roll.geo.a) = true then
    { s with
      roll := { s.roll with planner := { s.roll.planner with state := .approach } },
      sup := { s.sup with spliceLimit := true } }
  else s

/-- The splice forced at p_in + A: APPROACH, nothing frozen, SPLICE_SCHEDULED of kind 1 (R161). -/
def splicedByForce (s : State) : State :=
  let fire := s.tracker.pIn + BitVec.ofNat 32 s.roll.geo.a
  { s with
    queue := { s.queue with orders := frozenThrough none s.queue.orders },
    roll := { s.roll with planner := { s.roll.planner with
      state := .approach, forced := true, pFire := some fire, stretch := none, freeze := none,
      jointDue := some (fire + BitVec.ofNat 32 s.roll.geo.lSf - BitVec.ofNat 32 s.roll.geo.lDf) } },
    sup := { s.sup with spliceLimit := true },
    router := s.router.map (notePort .spliceScheduled (posBytes fire ++ [1])) }

/-- The deadline test of PLANNING (R160). -/
def deadlineMet (r : RollStatus) (s : State) : State :=
  if reached s.tracker.pIn (deadlineAt s.roll.geo r - BitVec.ofNat 32 s.roll.geo.a) = true then splicedByForce s else s

/-- The part after a search made in PLANNING or SCHEDULED under a known roll status (the table of R160); in another
planner state no search is made. -/
def searched (s : State) : State :=
  let p := s.roll.planner
  match p.status with
  | none => s
  | some r =>
    let noted : State := { s with roll := { s.roll with planner := { p with outcome := (searchResult s r).1 } } }
    if p.state = .planning then
      match (searchResult s r).2 with
      | some c => approachedBy c.pFire (scheduledOn c noted)
      | none => deadlineMet r noted
    else if p.state = .scheduled then
      match (searchResult s r).2 with
      | some c => if p.pFire = some c.pFire then noted else scheduledOn c noted
      | none =>
        deadlineMet r { noted with
          queue := { s.queue with orders := frozenThrough none s.queue.orders },
          roll := { s.roll with planner := { noted.roll.planner with
            state := .planning, pFire := none, stretch := none, freeze := none, jointDue := none } } }
    else s

end Sys2Proof.Safety
end

