-- ==== Sys2Proof/Certificates/Slice0/Obligations.lean ====
section
/-! DEFINITION. The statements for the provers: the numbered rules of spec/, each as what a command answers or as a law
every step keeps.  A request statement names the whole next state; what it does not name is unchanged. -/

open Sys2Proof Sys2Proof.Machine Sys2Proof.Safety

/-! ### Steps, ports and frames (chapter 1) -/

/-- A step runs the command at the front of the queue on the state with the queue's rest. -/
def Obligations.StepTakesFront : Prop :=
  ∀ (c : Instr) (rest : List Instr) (s : State), s.pending = c :: rest → step s = exec c { s with pending := rest }

/-- An empty queue: with no timer due a millisecond passes; otherwise one of the due expiries is taken.  The choice of
time as what an empty queue does is the model's (log 1, log 2). -/
def Obligations.StepIdle : Prop :=
  ∀ s : State, s.pending = [] →
    (dueNow s = [] → step s = .next (tick s)) ∧
    (dueNow s ≠ [] → ∃ c ∈ dueNow s, step s = exec c { s with free := s.free + 1 })

/-- DEVICE_RESET: every block at its device-reset values, with an occurrence of any kind then asserting attention on
every port (R1, R22, R26, R34, R35, R42, R43, R57, R58, R81, R84, R86, R93, R96, R98, R100, R103, R124, R126, R127,
R129, R137, R144, R151, R152, R153, R156, R168, R175 to R177).  That the pins and the waiting commands are not the
part's to reset (log 5, log 32), that no byte is held as shifted out (log 26) and that the periodic timers of the probes,
regulation, valve windows, doses, speed updates and probe checks each start a full period (log 25) are the model's
choices; the flag reachedInStop is its own (log 49). -/
def Obligations.DeviceReset : Prop :=
  ∀ s : State, ∃ t, exec .deviceReset s = .next t ∧
    (t.pins = s.pins ∧ t.pending = s.pending ∧ t.free = s.free) ∧
    (∀ p, t.ports.get p =
      { rxFrame := [], response := ⟨0x01, .ok, []⟩, timeout := 0, timer := none, lost := false, frameCount := 0,
        badCount := 0, dataOut := [] }) ∧
    (∀ p, (t.router.get p).floor = 0 ∧ (t.router.get p).records = List.replicate 20 ⟨1, false, 0, List.replicate 8 0⟩ ∧
      attention (t.router.get p) = false) ∧
    (∀ p k d, attention (notePort k d (t.router.get p)) = true) ∧
    (∀ i, slotAt t i = ⟨.empty, 0, 0, 0, [], 0⟩) ∧
    t.store = ⟨List.replicate 16 ⟨.empty, 0, 0, 0, [], 0⟩, none⟩ ∧
    t.queue = ⟨[], false, 1, 0⟩ ∧
    t.former =
      { state := .idle, resume := none, hold := .none, panel := none, step := none, rep := 0, depth := 0, target := 0,
        trigger := none, late := false, reachedInStop := false, cIn := 0, cOut := 0, timer := none,
        bridgeTarget := none, retractAfterTrip := false, bladeSide := false, set := ⟨20, 40, 40, 400, 1, 1, 1, 1⟩ } ∧
    t.tracker =
      { pIn := 0, pOut := 0, high := 0, bladeHome := ⟨s.pins.bladeHome, none⟩, hoodUp := ⟨s.pins.hoodUp, none⟩,
        hoodDown := ⟨s.pins.hoodDown, none⟩, jointDetector := ⟨s.pins.jointDetector, none⟩,
        set := ⟨3, 10, 10, 2, true, true, true, true, false, false, false⟩, joints := [], droppedCaptures := 0,
        droppedMarks := 0, map := [], table := [], nextPanel := 0, reports := [], begun := 0, taken := 0 } ∧
    (∀ z, t.zones.get z =
      { state := .off, armed := false, target := 0, measured := 0, held := false, duty := 0, windowDuty := 0, blank := 0,
        soft := 0, hi := 0, purge := 0, settle := 0, gain := 0, dutyMax := 1000, softDuty := 250, softTime := 60,
        purgeDelay := 10, purgeTime := 30, valve := false, probeTimer := 100, regTimer := 1000, windowTimer := 1000 }) ∧
    t.settledReported = false ∧
    ((∀ i, (t.dose.recipes.get i).valid = false) ∧ t.dose.tunnelRecipe = none ∧ t.dose.pendingRecipe = none ∧
      t.dose.tunnel = ⟨32, 500, 4000, 8, 16, 24⟩ ∧ t.dose.cells = List.replicate 32 none ∧ t.dose.nextShift = 500 ∧
      t.dose.sampleTimer = 100) ∧
    (∀ z, t.monitor.zones.get z =
      { mode := .off, tLimit := 2500, blankSet := 5, deglitchSet := 3, blank := 0, deglitch := 0, acted := false,
        warn := false, retry := false, hold := .none, targetChanged := false, probeFlagged := false }) ∧
    (t.monitor.interval = 0 ∧ t.monitor.intervalCount = 0 ∧ t.monitor.position = 0 ∧ t.monitor.test = none ∧
      t.monitor.testPeriods = 0 ∧ t.monitor.testLatest = none ∧ t.monitor.vBreakMin = 0 ∧ t.monitor.breakTime = 20 ∧
      t.monitor.breakTimer = none ∧ t.monitor.estop = !s.pins.estop ∧ t.monitor.checkTimer = 1000) ∧
    t.roll.geo =
      { lDf := 20000, lSf := 40000, j := 800, c := 2000, a := 6000, wDet := 1500, tol := 300, reserve := 15000,
        low := 100000, lK := 40000, cutOffset := 1000, vSplice := 40, splicePulse := 20, cutPulse := 10 } ∧
    t.roll.planner =
      { status := none, state := .idle, forced := false, pFire := none, stretch := none, freeze := none,
        outcome := .noneMade, expected := none, jointDue := none, firedSinceArm := false, pulse := none } ∧
    t.roll.cut = { state := .idle, target := none, midpoint := false, point := none, fired := false, pulse := none } ∧
    t.sup =
      { line := .stopped, prev := .stopped, tripCause := none, stopPending := false, causes := ⟨false, false, false⟩,
        vReq := 0, formerLimit := none, spliceLimit := false, vPlan := 0, vPlanRun := 0, vHeat := 120, vRef := 0,
        speedOut := 0, hoodDown := false, hood := if s.pins.hoodUp = true then .up else .raising,
        hoodTimer := if s.pins.hoodUp = true then none else some 10000, hoodDelayTimer := none,
        set := ⟨120, 4, 10, 50⟩, updateTimer := 100 }

/-- R10: the four ways a frame is incomplete, each answered BAD_LENGTH with the kind byte received, 0 without one; and
the first row of R3, a transaction with no clock, which leaves the response pending and counts nothing. -/
def Obligations.IncompleteFrame : Prop :=
  ∀ (p : Port) (bytes : List Byte) (s : State),
    ((bytes = [] ∨ (∃ k, bytes = [k]) ∨ (∃ k n rest, bytes = k :: n :: rest ∧ 60 < n.toNat) ∨
        ∃ k n rest, bytes = k :: n :: rest ∧ n.toNat ≤ 60 ∧ rest.length < n.toNat) →
      exec (.incompleteFrame p bytes) s = .next (discarded p bytes s)) ∧
    exec (.emptyTransaction p) s =
      .next { s with ports := s.ports.set p { s.ports.get p with rxFrame := [] } }

/-- A kind byte outside the table: counted, refreshed, answered BAD_KIND, handed to no block (R8 step 2, R9). -/
def Obligations.UnknownKind : Prop :=
  ∀ (kind : Byte) (f : Frame) (s : State), kind ∉ requestKinds → f.payload.length ≤ 60 →
    exec (.unknownKindFrame kind f) s = .next (answered kind f .badKind [] s)

/-- The authority and length checks of every request row, in their order, and an announced length above 60 (R8). -/
def Obligations.RequestChecks : Prop :=
  ∀ (c : Instr) (r : Request) (s : State), requestOf c = some r →
    (60 < r.frame.payload.length → r.frame.payload.length ≤ 255 →
      exec c s = .next (discarded r.frame.port (r.frame.bytes r.kind) s)) ∧
    (r.frame.payload.length ≤ 60 → r.authority ≠ none → r.authority ≠ some r.frame.port →
      exec c s = .next (answered r.kind r.frame .notPermitted [] s)) ∧
    (r.frame.payload.length ≤ 60 → (r.authority = none ∨ r.authority = some r.frame.port) →
      r.frame.payload.length ∉ r.lengths → exec c s = .next (answered r.kind r.frame .badLength [] s))

/-- R12: NOP of any length on any port. -/
def Obligations.NopTaken : Prop :=
  ∀ (f : Frame) (s : State), f.payload.length ≤ 60 → exec (.nop f) s = .next (answered 0x01 f .ok [] s)

/-- R13: the checks of STATUS_READ, and each view as it stands, byte for byte as its table lays it out (R188, R123, R80,
R54, R101, R174).  Bytes 7..14 of the SPLICE view without a roll status are free values (log 4); the estimated remaining is
worked out from the present p_in, the model's reading (log 52). -/
def Obligations.StatusRead : Prop :=
  ∀ (c : Instr) (p : Port) (v i j : Byte) (extra : List Byte) (s : State),
    let f : Frame := ⟨p, [v, i, j], extra⟩
    isViewRow c f →
      (7 < v.toNat → exec c s = .next (answered 0x02 f .badValue [] s)) ∧
      (v = 0 → exec c s = .next (answered 0x02 f .ok (lineLayout s) s)) ∧
      (v = 1 → 3 < i.toNat + 256 * j.toNat → exec c s = .next (answered 0x02 f .badValue [] s)) ∧
      (∀ z : Fin 4, v = 1 → i.toNat + 256 * j.toNat = z.val →
        exec c s = .next (answered 0x02 f .ok (zoneLayout s z) s)) ∧
      (v = 2 → exec c s = .next (answered 0x02 f .ok (formerLayout (formerSpeed s) s.former) s)) ∧
      (v = 3 → exec c s = .next (answered 0x02 f .ok (queueLayout s) s)) ∧
      (v = 4 → (∀ r ∈ s.tracker.table, r.number.toNat ≠ i.toNat + 256 * j.toNat) →
        exec c s = .next (answered 0x02 f .notFound [] s)) ∧
      (∀ before r after, v = 4 → s.tracker.table = before ++ r :: after →
        (∀ q ∈ before, q.number ≠ r.number) → r.number.toNat = i.toNat + 256 * j.toNat →
        exec c s = .next (answered 0x02 f .ok (recordLayout r) s)) ∧
      (v = 5 → exec c s = .next (answered 0x02 f .ok (mapLayout s) s)) ∧
      (∀ a b, v = 6 → s.roll.planner.status ≠ none →
        exec c s = .next (answered 0x02 f .ok (spliceLayout s a b) s)) ∧
      (v = 6 → s.roll.planner.status = none →
        ∃ a b, exec c s = .next (answered 0x02 f .ok (spliceLayout s a b) { s with free := s.free + 1 }))

/-- R14: the PORT view, the asking port's own frame counted and its lost flag clear. -/
def Obligations.PortView : Prop :=
  ∀ (p : Port) (i j : Byte) (extra : List Byte) (s : State),
    let f : Frame := ⟨p, [7, i, j], extra⟩
    let group (q : Port) : List Byte :=
      byte1 (s.ports.get q).timeout ++ byte1 (bit ((s.ports.get q).lost && decide (q ≠ p)) 1) ++
        bytes2 ((s.ports.get q).frameCount + (if q = p then 1 else 0)).toNat ++ byte1 (s.ports.get q).badCount
    exec (.portView f) s =
      .next (answered 0x02 f .ok (byte1 (portNumber p) ++ group .line ++ group .pattern ++ group .roll) s)

/-- R15: PRESENCE_SET on each port. -/
def Obligations.PresenceSet : Prop :=
  ∀ (p : Port) (v : Byte) (extra : List Byte) (s : State),
    let f : Frame := ⟨p, [v], extra⟩
    (∀ pl : List Byte, pl.length ≤ 60 → pl.length ≠ 1 →
      exec (.presenceSet ⟨p, pl, extra⟩) s = .next (answered 0x06 ⟨p, pl, extra⟩ .badLength [] s)) ∧
    (p = .line ∧ v = 0 ∧ s.sup.line ≠ .stopped → exec (.presenceSet f) s = .next (answered 0x06 f .wrongState [] s)) ∧
    (¬(p = .line ∧ v = 0 ∧ s.sup.line ≠ .stopped) →
      let q : PortState :=
        { answeredPort 0x06 f .ok [] (s.ports.get p) with
          timeout := v.toNat, timer := if v = 0 then none else some (v.toNat * 100) }
      exec (.presenceSet f) s = .next { s with ports := s.ports.set p q })

/-- A presence timer that runs expires, for every port p: p is LOST, MASTER_LOST with p's number reaches the two other
ports and not p (R18); a lost line port stops a WARMING, LOWERING, RUNNING or HOLDING line and leaves a STOPPED, TRIPPED
or STOPPING one (R19); a lost roll port withdraws a waiting cut and a splice not yet fired (R20); a lost pattern port
changes nothing more (R21).  That the withdrawn cut's midpoint is cleared is the model's reading (log 15). -/
def Obligations.PresenceExpiry : Prop :=
  ∀ (p : Port) (s : State), (s.ports.get p).timer ≠ none →
    let told (q : Port) : RouterPort := notePort .masterLost [BitVec.ofNat 8 (portNumber p)] (s.router.get q)
    let l := s.sup.line
    let k := s.roll.cut
    let plan := s.roll.planner
    ∃ t, exec (.presenceExpiry p) s = .next t ∧
      t.ports = s.ports.set p { s.ports.get p with lost := true, timer := none } ∧
      (∀ q, q ≠ p → (t.router.get q).records[7]? = (told q).records[7]?) ∧
      (t.router.get p).records[7]? = (s.router.get p).records[7]? ∧
      (p = .pattern →
        t.router = ⟨notePort .masterLost [1] s.router.line, s.router.pattern, notePort .masterLost [1] s.router.roll⟩ ∧
        t = { s with ports := t.ports, router := t.router, tracker := { s.tracker with table := t.tracker.table } } ∧
        (JointFlags s → t.tracker = s.tracker)) ∧
      (p = .line → l = .stopped ∨ l = .tripped ∨ l = .stopping →
        t.router = ⟨s.router.line, told .pattern, told .roll⟩ ∧ t.sup = s.sup ∧
        (JointFlags s → t = { s with ports := t.ports, router := t.router })) ∧
      (p = .line → l = .warming ∨ l = .lowering ∨ l = .running ∨ l = .holding →
        (t.sup.line = .stopping ∨ t.sup.line = .stopped) ∧ t.sup.vPlan = 0 ∧ t.sup.vRef = 0 ∧ t.sup.speedOut = 0 ∧
        t.sup.stopPending = false ∧
        (s.former.state ∈ [.feed, .tuck, .press, .retract] →
          t.sup.line = .stopping ∧ t.sup.prev = l ∧ t.former.state = s.former.state ∧
            t.sup.hoodDelayTimer = s.sup.hoodDelayTimer)) ∧
      (p = .roll → k.state = .waiting → t.roll.cut.state = .idle) ∧
      (p = .roll → plan.state ≠ .fired → t.roll.planner.state = .idle) ∧
      (p = .roll → plan.state = .idle ∨ plan.state = .fired → JointFlags s →
        t = { s with
          ports := t.ports, router := ⟨told .line, told .pattern, s.router.roll⟩,
          roll := { s.roll with
            cut := if k.state = .waiting then
              { k with state := .idle, target := none, point := none, midpoint := false } else k } }) ∧
      (p = .roll → plan.state = .planning ∨ plan.state = .scheduled ∨ plan.state = .approach →
        t.roll.planner.pFire = none ∧ t.roll.planner.stretch = none ∧ t.roll.planner.jointDue = none ∧
        t.roll.planner.freeze = none ∧ t.roll.planner.status.isSome = plan.status.isSome ∧
        t.sup.spliceLimit = false ∧
        ∀ q, (t.router.get q).records[10]? =
          (notePort .spliceFailed ([3] ++ posBytes (plan.pFire.getD 0)) (s.router.get q)).records[10]?)

/-! ### Events (chapter 2) -/

/-- R27: what an occurrence of a kind does to each port's record of that kind, and to no other record; R28: a port's
attention output is asserted exactly while a pending kind has a level above the floor. -/
def Obligations.Occurrences : Prop :=
  (∀ (k : EventKind) (d : List Byte) (s : State) (p : Port), (s.router.get p).records.length = 20 →
    ∃ e e', (s.router.get p).records[eventNumber k]? = some e ∧
      ((raise k d s).router.get p).records = (s.router.get p).records.set (eventNumber k) e' ∧
      ((raise k d s).router.get p).floor = (s.router.get p).floor ∧ e'.level = e.level ∧
      (e.level = 0 → e' = e) ∧
      (e.level ≠ 0 → e'.flag = true ∧ e'.detail = (d ++ List.replicate 8 0).take 8 ∧
        e'.count = if e.flag then (if e.count < 255 then e.count + 1 else 255) else 1)) ∧
    ∀ r : RouterPort, attention r = true ↔ ∃ e ∈ r.records, e.flag = true ∧ r.floor < e.level

/-- R29, R30: EVENT_TAKE allows no payload; it returns the pending kind of the highest level, the lowest number among
equals, and clears its record; with none pending it is EMPTY. -/
def Obligations.EventTake : Prop :=
  ∀ (p : Port) (extra : List Byte) (s : State),
    let f : Frame := ⟨p, [], extra⟩
    let rs := (s.router.get p).records
    (∀ pl : List Byte, pl.length ≤ 60 → pl ≠ [] →
      exec (.eventTake ⟨p, pl, extra⟩) s = .next (answered 0x03 ⟨p, pl, extra⟩ .badLength [] s)) ∧
    ((∀ e ∈ rs, e.flag = false) → exec (.eventTake f) s = .next (answered 0x03 f .empty [] s)) ∧
    (∀ i e, rs[i]? = some e → e.flag = true →
      (∀ j e', rs[j]? = some e' → e'.flag = true → e'.level < e.level ∨ (e'.level = e.level ∧ i ≤ j)) →
      let left := rs.set i ⟨e.level, false, 0, List.replicate 8 0⟩
      exec (.eventTake f) s =
        .next (answered 0x03 f .ok
          ([BitVec.ofNat 8 i, BitVec.ofNat 8 e.level, BitVec.ofNat 8 e.count,
              BitVec.ofNat 8 ([6, 3, 6, 1, 5, 1, 2, 1, 5, 8, 5, 4, 8, 5, 2, 0, 1, 2, 2, 2].getD i 0)] ++
            e.detail ++ [BitVec.ofNat 8 (left.filter fun x => x.flag).length])
          { s with router := s.router.set p { s.router.get p with records := left } }))

/-- R32: ROUTE_SET, with the attention output as R28 gives it from then on. -/
def Obligations.RouteSet : Prop :=
  ∀ (p : Port) (k l : Byte) (extra : List Byte) (s : State),
    let f : Frame := ⟨p, [k, l], extra⟩
    let rs := (s.router.get p).records
    (∀ pl : List Byte, pl.length ≤ 60 → pl.length ≠ 2 →
      exec (.routeSet ⟨p, pl, extra⟩) s = .next (answered 0x04 ⟨p, pl, extra⟩ .badLength [] s)) ∧
    (19 < k.toNat ∨ 3 < l.toNat → exec (.routeSet f) s = .next (answered 0x04 f .badValue [] s)) ∧
    (∀ e, k.toNat ≤ 19 → l.toNat ≤ 3 → rs[k.toNat]? = some e →
      let e' : EventRecord := if l = 0 then ⟨0, false, 0, List.replicate 8 0⟩ else { e with level := l.toNat }
      ∃ t, exec (.routeSet f) s = .next t ∧
        t = answered 0x04 f .ok [BitVec.ofNat 8 e.level]
          { s with router := s.router.set p { s.router.get p with records := rs.set k.toNat e' } } ∧
        (attention (t.router.get p) = true ↔
          ∃ x ∈ rs.set k.toNat e', x.flag = true ∧ (s.router.get p).floor < x.level))

/-- R33: FLOOR_SET, with the attention output as R28 gives it from then on. -/
def Obligations.FloorSet : Prop :=
  ∀ (f : Frame) (s : State), f.payload.length ≤ 60 →
    (f.payload.length ≠ 1 → exec (.floorSet f) s = .next (answered 0x05 f .badLength [] s)) ∧
    (∀ v, f.payload = [v] → 3 < v.toNat → exec (.floorSet f) s = .next (answered 0x05 f .badValue [] s)) ∧
    (∀ v, f.payload = [v] → v.toNat ≤ 3 → ∃ t, exec (.floorSet f) s = .next t ∧
      t = answered 0x05 f .ok [BitVec.ofNat 8 (s.router.get f.port).floor]
        { s with router := s.router.set f.port { s.router.get f.port with floor := v.toNat } } ∧
      (attention (t.router.get f.port) = true ↔
        ∃ e ∈ (s.router.get f.port).records, e.flag = true ∧ v.toNat < e.level))

/-! ### Patterns, orders and reports (chapters 3 and 5) -/

/-- R38: PATTERN_BEGIN, its checks in their order. -/
def Obligations.PatternBegin : Prop :=
  ∀ (f : Frame) (s : State), f.port = .pattern → f.payload.length ≤ 60 →
    (f.payload.length ≠ 6 → exec (.patternBegin f) s = .next (answered 0x20 f .badLength [] s)) ∧
    ∀ (i n l0 l1 t0 t1 : Byte), f.payload = [i, n, l0, l1, t0, t1] →
      (15 < i.toNat ∨ n = 0 ∨ 64 < n.toNat → exec (.patternBegin f) s = .next (answered 0x20 f .badValue [] s)) ∧
      ∀ k : Fin 16, k.val = i.toNat → 1 ≤ n.toNat → n.toNat ≤ 64 →
        (∀ j, s.store.load = some j → j ≠ k → exec (.patternBegin f) s = .next (answered 0x20 f .busy [] s)) ∧
        ((s.store.load = none ∨ s.store.load = some k) → 0 < (slotAt s k).refs →
          exec (.patternBegin f) s = .next (answered 0x20 f .inUse [] s)) ∧
        ((s.store.load = none ∨ s.store.load = some k) → (slotAt s k).refs = 0 → s.store.slots.length = 16 →
          let sl : Slot := ⟨.loading, l0.toNat + 256 * l1.toNat, t0.toNat + 256 * t1.toNat, n.toNat, [], 0⟩
          exec (.patternBegin f) s =
            .next (answered 0x20 f .ok [i] { s with store := ⟨s.store.slots.set k.val sl, some k⟩ }))

/-- R39: PATTERN_STEPS stores the records of its payload unchecked, each laid out as section 3.3 gives. -/
def Obligations.PatternSteps : Prop :=
  (∀ (f : Frame) (s : State), f.port = .pattern → f.payload.length ≤ 60 →
    (f.payload.length ∉ [9, 18, 27, 36, 45, 54] → exec (.patternSteps f) s = .next (answered 0x21 f .badLength [] s)) ∧
    (f.payload.length ∈ [9, 18, 27, 36, 45, 54] → s.store.load = none →
      exec (.patternSteps f) s = .next (answered 0x21 f .wrongState [] s)) ∧
    (f.payload.length ∈ [9, 18, 27, 36, 45, 54] → ∀ k sl, s.store.load = some k → s.store.slots[k.val]? = some sl →
      let n := sl.steps.length + f.payload.length / 9
      (sl.stepCount < n → exec (.patternSteps f) s = .next (answered 0x21 f .full [] s)) ∧
      (n ≤ sl.stepCount →
        let sl' : Slot := { sl with steps := sl.steps ++ stepRecs f.payload }
        exec (.patternSteps f) s =
          .next (answered 0x21 f .ok [BitVec.ofNat 8 n]
            { s with store := { s.store with slots := s.store.slots.set k.val sl' } })))) ∧
    (∀ k w0 w1 d0 d1 r p0 p1 g : Byte,
      stepRecs [k, w0, w1, d0, d1, r, p0, p1, g] =
        [⟨k.toNat, w0.toNat + 256 * w1.toNat, d0.toNat + 256 * d1.toNat, r.toNat, p0.toNat + 256 * p1.toNat,
          g.toInt⟩]) ∧
    ∀ a b : List Byte, a.length % 9 = 0 → stepRecs (a ++ b) = stepRecs a ++ stepRecs b

/-- R40: PATTERN_END, its check of everything received. -/
def Obligations.PatternEnd : Prop :=
  ∀ (f : Frame) (s : State), f.port = .pattern → f.payload.length ≤ 60 →
    (f.payload ≠ [] → exec (.patternEnd f) s = .next (answered 0x22 f .badLength [] s)) ∧
    (f.payload = [] → s.store.load = none → exec (.patternEnd f) s = .next (answered 0x22 f .wrongState [] s)) ∧
    (f.payload = [] → ∀ k sl, s.store.load = some k → s.store.slots[k.val]? = some sl →
      let good (j : Nat) : Prop := ∃ r, sl.steps[j]? = some r ∧ ∀ c, ¬failsAt r c
      ((∀ j, j < sl.stepCount → good j) →
        let sl' : Slot := { sl with state := .valid }
        exec (.patternEnd f) s =
          .next (answered 0x22 f .ok [BitVec.ofNat 8 k.val, BitVec.ofNat 8 sl.stepCount]
            { s with store := ⟨s.store.slots.set k.val sl', none⟩ }) ∧
        (References s → sl'.refs = 0)) ∧
      (∀ i, i < sl.stepCount → (∀ j, j < i → good j) →
        (sl.steps[i]? = none →
          exec (.patternEnd f) s = .next (answered 0x22 f .badValue [BitVec.ofNat 8 i, 7] s)) ∧
        (∀ r c, sl.steps[i]? = some r → failsAt r c → (∀ d, d < c → ¬failsAt r d) →
          exec (.patternEnd f) s = .next (answered 0x22 f .badValue [BitVec.ofNat 8 i, BitVec.ofNat 8 c] s))))

/-- R41: PATTERN_DELETE on each kind of slot. -/
def Obligations.PatternDelete : Prop :=
  ∀ (f : Frame) (s : State), f.port = .pattern → f.payload.length ≤ 60 →
    (f.payload.length ≠ 1 → exec (.patternDelete f) s = .next (answered 0x23 f .badLength [] s)) ∧
    ∀ i, f.payload = [i] →
      (15 < i.toNat → exec (.patternDelete f) s = .next (answered 0x23 f .badValue [] s)) ∧
      ∀ sl, s.store.slots[i.toNat]? = some sl → i.toNat ≤ 15 →
        (sl.state = .empty → exec (.patternDelete f) s = .next (answered 0x23 f .notFound [] s)) ∧
        (sl.state = .valid → 0 < sl.refs → exec (.patternDelete f) s = .next (answered 0x23 f .inUse [] s)) ∧
        (sl.state = .valid → sl.refs = 0 →
          exec (.patternDelete f) s =
            .next (answered 0x23 f .ok []
              { s with store := ⟨s.store.slots.set i.toNat ⟨.empty, 0, 0, 0, [], 0⟩, s.store.load⟩ })) ∧
        (sl.state = .loading →
          exec (.patternDelete f) s =
            .next (answered 0x23 f .ok []
              { s with store := ⟨s.store.slots.set i.toNat ⟨.empty, 0, 0, 0, [], sl.refs⟩, none⟩ }))

/-- A referenced slot is never changed or emptied: only a device reset touches its header and steps (R37). -/
def Obligations.ReferencedSlotKept : Prop :=
  ∀ (c : Instr) (s t : State), References s → exec c s = .next t → c ≠ .deviceReset →
    ∀ (i : Nat) (sl sl' : Slot), s.store.slots[i]? = some sl → 0 < sl.refs → t.store.slots[i]? = some sl' →
      sl'.state = sl.state ∧ sl'.lead = sl.lead ∧ sl'.tail = sl.tail ∧ sl'.stepCount = sl.stepCount ∧
        sl'.steps = sl.steps

/-- ORDER_QUEUE: its checks, the id (R44), and what a taken order adds (R45).  With the former not HELD at a boundary
nothing follows but the search of an armed splice (R160).  A former HELD for want of work on a line held for nothing else,
the hood still DOWN, starts the order's first panel at once, when the tunnel has its recipe and there is room (R63, R180).
Where a search that loses its stretch could end a bridge nothing is said.  In the search a pleated length of count 0 keeps
a stretch joined, the model's reading (log 18). -/
def Obligations.OrderQueue : Prop :=
  ∀ (p r c0 c1 : Byte) (extra : List Byte) (s : State),
    let f : Frame := ⟨.pattern, [p, r, c0, c1], extra⟩
    let n := s.queue.orders.length
    (15 < p.toNat ∨ 3 < r.toNat → exec (.orderQueue f) s = .next (answered 0x24 f .badValue [] s)) ∧
    (∀ (i : Fin 16) (j : Fin 4), p.toNat = i.val → r.toNat = j.val →
      (8 ≤ n → exec (.orderQueue f) s = .next (answered 0x24 f .full [] s)) ∧
      (n < 8 → (slotAt s i).state ≠ .valid ∨ (s.dose.recipes.get j).valid = false →
        exec (.orderQueue f) s = .next (answered 0x24 f .notFound [] s)) ∧
      (n < 8 → (slotAt s i).state = .valid → (s.dose.recipes.get j).valid = true → Orders s →
        ∃ k id t, k < 8 ∧ id = idCandidate s.queue.nextId k ∧ (∀ o ∈ s.queue.orders, o.id ≠ id) ∧
          (∀ k', k' < k → ∃ o ∈ s.queue.orders, o.id = idCandidate s.queue.nextId k') ∧
          exec (.orderQueue f) s = .next t ∧
          t.ports = (answered 0x24 f .ok [BitVec.ofNat 8 id, BitVec.ofNat 8 (n + 1)] s).ports ∧
          t.queue.nextId = (if id = 255 then 1 else id + 1) ∧
          let added : Order := ⟨id, i, j, c0.toNat + 256 * c1.toNat, 0, false, false⟩
          let u : State := { s with
            queue := { s.queue with orders := s.queue.orders ++ [added], nextId := t.queue.nextId },
            store := { s.store with
              slots := s.store.slots.set i.val { slotAt s i with refs := (slotAt s i).refs + 1 } } }
          let planner := s.roll.planner.state
          (heldAtBoundary s.former = false → JointFlags s → s.store.slots.length = 16 →
            (planner = .planning ∨ planner = .scheduled → s.roll.planner.status ≠ none) →
            s.former.state ≠ .bridge ∨ planner ≠ .scheduled →
            t = { searched u with ports := t.ports }) ∧
          (s.former.state = .held → s.former.hold = .starved → s.former.resume = none → s.former.panel = none →
            s.queue.orders = [] → s.sup.line = .holding → s.sup.hood = .down → s.sup.causes = ⟨true, false, false⟩ →
            s.dose.tunnelRecipe = some j → s.tracker.table.length < 32 → s.tracker.map.length ≤ 60 →
            s.store.slots.length = 16 → lengthRuns (countOf s.former (patternAhead u).lead) →
            t.sup.line = .running ∧ t.sup.prev = .holding ∧ t.sup.causes = ⟨false, false, false⟩ ∧
              t.queue.active = true ∧ t.tracker = panelBegun added u.tracker ∧
              t.former = { leadEntered u with bladeSide := false })))

/-- R46: ORDER_CANCEL.  With the former not HELD at a boundary a removal changes nothing but what is named. -/
def Obligations.OrderCancel : Prop :=
  ∀ (i : Byte) (extra : List Byte) (s : State),
    let f : Frame := ⟨.pattern, [i], extra⟩
    ((∀ o ∈ s.queue.orders, o.id ≠ i.toNat) → exec (.orderCancel f) s = .next (answered 0x25 f .notFound [] s)) ∧
    (∀ before o after, s.queue.orders = before ++ o :: after → (∀ x ∈ before, x.id ≠ o.id) → o.id = i.toNat →
      let activeOne : Prop := s.queue.active = true ∧ before = []
      let freed : Store :=
        { s.store with slots := s.store.slots.set o.pattern.val { slotAt s o.pattern with refs := (slotAt s o.pattern).refs - 1 } }
      (o.frozen = true → exec (.orderCancel f) s = .next (answered 0x25 f .inUse [] s)) ∧
      (o.frozen = false → activeOne → o.cancel = true →
        exec (.orderCancel f) s = .next (answered 0x25 f .accepted [] s)) ∧
      (o.frozen = false → activeOne → o.cancel = false → s.former.panel ≠ none →
        exec (.orderCancel f) s =
          .next (answered 0x25 f .accepted []
            { s with queue := { s.queue with orders := { o with cancel := true } :: after } })) ∧
      (o.frozen = false → activeOne → o.cancel = false → s.former.panel = none → heldAtBoundary s.former = false →
        JointFlags s → s.store.slots.length = 16 →
        exec (.orderCancel f) s =
          .next (answered 0x25 f .ok []
            { s with
              queue := { s.queue with orders := after, active := false }, store := freed,
              router := s.router.map (notePort .orderDone
                ([BitVec.ofNat 8 o.id, BitVec.ofNat 8 o.pattern.val] ++ bytes2 o.done ++ [1])) })) ∧
      (o.frozen = false → ¬activeOne → heldAtBoundary s.former = false → JointFlags s → s.store.slots.length = 16 →
        let queued := (before ++ after).length - if s.queue.active = true then 1 else 0
        exec (.orderCancel f) s =
          .next (answered 0x25 f .ok []
            { s with
              queue := { s.queue with orders := before ++ after }, store := freed,
              router := if queued ≤ s.queue.low then
                s.router.map (notePort .runQueueLow [BitVec.ofNat 8 queued, BitVec.ofNat 8 s.queue.low])
                else s.router })))

/-- QUEUE_LOW_SET (R52). -/
def Obligations.QueueLowSet : Prop :=
  ∀ (v : Byte) (extra : List Byte) (s : State),
    let f : Frame := ⟨.pattern, [v], extra⟩
    (7 < v.toNat → exec (.queueLowSet f) s = .next (answered 0x27 f .badValue [] s)) ∧
    (v.toNat ≤ 7 →
      exec (.queueLowSet f) s =
        .next (answered 0x27 f .ok [BitVec.ofNat 8 s.queue.low] { s with queue := { s.queue with low := v.toNat } }))

/-- REPORT_TAKE: EMPTY, or the oldest report in the layout of section 5.9; the oldest waiting record's report takes the
freed place and that record leaves the table (R95, R97). -/
def Obligations.ReportTake : Prop :=
  ∀ (extra : List Byte) (s : State),
    let f : Frame := ⟨.pattern, [], extra⟩
    (s.tracker.reports = [] → exec (.reportTake f) s = .next (answered 0x26 f .empty [] s)) ∧
    (∀ r rest, s.tracker.reports = r :: rest →
      (∀ w ∈ s.tracker.table, w.state ≠ .waitingReport) → JointFlags s →
        exec (.reportTake f) s =
          .next (answered 0x26 f .ok (recordLayout r ++ [BitVec.ofNat 8 rest.length])
            { s with tracker := { s.tracker with reports := rest, taken := s.tracker.taken + 1 } })) ∧
    (∀ r rest before w after, s.tracker.reports = r :: rest → rest.length < 16 →
      s.tracker.table = before ++ w :: after → (∀ q ∈ before, q.state ≠ .waitingReport ∧ q.number ≠ w.number) →
      w.state = .waitingReport →
      let response := recordLayout r ++ [BitVec.ofNat 8 (rest.length + 1)]
      let ready := if rest = [] then s.router.map (notePort .reportReady [1]) else s.router
      ∃ t, exec (.reportTake f) s = .next t ∧ t.tracker.taken = s.tracker.taken + 1 ∧
        t.ports = (answered 0x26 f .ok response s).ports ∧ t.tracker.reports = rest ++ [finalReport w] ∧
        (∀ p, (t.router.get p).records[16]? = (ready.get p).records[16]?) ∧
        (heldAtBoundary s.former = false → s.dose.pendingRecipe = none → JointFlags s →
          t = answered 0x26 f .ok response
            { s with
              router := ready,
              tracker := { s.tracker with
                reports := rest ++ [finalReport w], taken := s.tracker.taken + 1, table := before ++ after } }))

/-! ### Settings -/

/-- FORMER_SET (R58): its ranges, the condition of a geometry setting, the carries a change of scale needs.  That BAD_VALUE
goes before WRONG_STATE is the model's choice (log 45). -/
def Obligations.FormerSet : Prop :=
  ∀ (pl extra : List Byte) (s : State), pl.length = 15 →
    let f : Frame := ⟨.line, pl, extra⟩
    let c : FormerSettings :=
      ⟨field pl 0 1, field pl 1 2, field pl 3 2, field pl 5 2, field pl 7 2, field pl 9 2, field pl 11 2, field pl 13 2⟩
    let ok : Prop := 1 ≤ c.f ∧ (10 ≤ c.tuck ∧ c.tuck ≤ 500) ∧ (10 ≤ c.retractAllow ∧ c.retractAllow ≤ 1000) ∧
      (50 ≤ c.retractTimeout ∧ c.retractTimeout ≤ 5000) ∧ c.retractAllow ≤ c.retractTimeout ∧
      1 ≤ c.inNum ∧ 1 ≤ c.inDen ∧ 1 ≤ c.outNum ∧ 1 ≤ c.outDen
    let sameScale : Prop := c.inNum = s.former.set.inNum ∧ c.inDen = s.former.set.inDen ∧
      c.outNum = s.former.set.outNum ∧ c.outDen = s.former.set.outDen
    let settled : Prop := s.former.cIn = 0 ∧ s.former.cOut = 0
    (¬ok → exec (.formerSet f) s = .next (answered 0x18 f .badValue [] s)) ∧
    (ok → ¬Bare s → exec (.formerSet f) s = .next (answered 0x18 f .wrongState [] s)) ∧
    (ok → Bare s → ¬sameScale → ¬settled → exec (.formerSet f) s = .next (answered 0x18 f .wrongState [] s)) ∧
    (ok → Bare s → sameScale ∨ settled →
      exec (.formerSet f) s = .next (answered 0x18 f .ok [] { s with former := { s.former with set := c } }))

/-- TUNNEL_SET (R126): its ranges, the knife distance, and a taken one, which empties every cell.  That BAD_VALUE goes
before WRONG_STATE is the model's choice (log 45). -/
def Obligations.TunnelSet : Prop :=
  ∀ (pl extra : List Byte) (s : State), pl.length = 10 →
    let f : Frame := ⟨.line, pl, extra⟩
    let c : TunnelSettings := ⟨field pl 0 1, field pl 1 2, field pl 3 4, field pl 7 1, field pl 8 1, field pl 9 1⟩
    let ok : Prop := (16 ≤ c.n ∧ c.n ≤ 128) ∧ (50 ≤ c.pitch ∧ c.pitch ≤ 20000) ∧ c.lTe ≤ 16777215 ∧
      c.b1 ≤ c.b2 ∧ c.b2 ≤ c.b3 ∧ c.b3 ≤ c.n ∧ c.lTe + (c.n + 1) * c.pitch ≤ s.roll.geo.lK
    (¬ok → exec (.tunnelSet f) s = .next (answered 0x19 f .badValue [] s)) ∧
    (ok → ¬Bare s → exec (.tunnelSet f) s = .next (answered 0x19 f .wrongState [] s)) ∧
    (ok → Bare s →
      exec (.tunnelSet f) s =
        .next (answered 0x19 f .ok []
          { s with dose := { s.dose with
            tunnel := c, cells := List.replicate c.n none,
            nextShift := s.tracker.pOut + BitVec.ofNat 32 c.pitch } }))

/-- ROLL_GEOMETRY_SET (R152).  That BAD_VALUE goes before WRONG_STATE is the model's choice (log 45). -/
def Obligations.RollGeometrySet : Prop :=
  ∀ (pl extra : List Byte) (s : State), pl.length = 48 →
    let f : Frame := ⟨.line, pl, extra⟩
    let g : RollGeometry :=
      { lDf := field pl 0 4, lSf := field pl 4 4, j := field pl 8 4, c := field pl 12 4, a := field pl 16 4,
        wDet := field pl 20 4, tol := field pl 24 4, reserve := field pl 28 4, low := field pl 32 4,
        lK := field pl 36 4, cutOffset := field pl 40 4, vSplice := field pl 44 2, splicePulse := field pl 46 1,
        cutPulse := field pl 47 1 }
    let ok : Prop := (1 ≤ g.lDf ∧ g.lDf ≤ 16777215) ∧ (g.lDf < g.lSf ∧ g.lSf ≤ 16777215) ∧ g.j ≤ 65535 ∧
      (g.j ≤ g.c ∧ g.c ≤ 1000000) ∧ g.a ≤ 16777215 ∧ g.wDet ≤ 1000000 ∧ g.tol ≤ g.wDet ∧ g.reserve ≤ 16777215 ∧
      g.low ≤ 16777215 ∧ (1 ≤ g.lK ∧ g.lK ≤ 16777215) ∧ g.cutOffset < g.lK ∧ 1 ≤ g.vSplice ∧ 1 ≤ g.splicePulse ∧
      1 ≤ g.cutPulse ∧ s.dose.tunnel.lTe + (s.dose.tunnel.n + 1) * s.dose.tunnel.pitch ≤ g.lK
    let still : Prop := Bare s ∧ s.tracker.joints = [] ∧ s.roll.planner.state = .idle ∧ s.roll.cut.state = .idle ∧
      s.roll.planner.jointDue = none
    (¬ok → exec (.rollGeometrySet f) s = .next (answered 0x1C f .badValue [] s)) ∧
    (ok → ¬still → exec (.rollGeometrySet f) s = .next (answered 0x1C f .wrongState [] s)) ∧
    (ok → still →
      exec (.rollGeometrySet f) s = .next (answered 0x1C f .ok [] { s with roll := { s.roll with geo := g } }))

/-- MOTION_SET and SPEED_SET (R176).  That BAD_VALUE goes before WRONG_STATE is the model's choice (log 45). -/
def Obligations.MotionAndSpeedSet : Prop :=
  (∀ (pl extra : List Byte) (s : State), pl.length = 7 →
    let f : Frame := ⟨.line, pl, extra⟩
    let m : MotionSettings := ⟨field pl 0 2, field pl 2 2, field pl 4 1, field pl 5 1⟩
    let ok : Prop := 1 ≤ m.vMax ∧ 1 ≤ m.accel ∧ (1 ≤ m.hoodTimeout ∧ m.hoodTimeout ≤ 30) ∧ field pl 6 1 = 0
    let free : Prop := m.vMax = s.sup.set.vMax ∨ s.sup.line = .stopped ∨ s.sup.line = .tripped
    (¬ok → exec (.motionSet f) s = .next (answered 0x1A f .badValue [] s)) ∧
    (ok → ¬free → exec (.motionSet f) s = .next (answered 0x1A f .wrongState [] s)) ∧
    (ok → free → exec (.motionSet f) s = .next (answered 0x1A f .ok [] { s with sup := { s.sup with set := m } }))) ∧
  ∀ (v0 v1 : Byte) (extra : List Byte) (s : State),
    let f : Frame := ⟨.line, [v0, v1], extra⟩
    let v := v0.toNat + 256 * v1.toNat
    (v ≤ s.sup.set.vMax →
      exec (.speedSet f) s = .next (answered 0x13 f .ok [v0, v1] { s with sup := { s.sup with vReq := v } })) ∧
    (s.sup.set.vMax < v →
      exec (.speedSet f) s =
        .next (answered 0x13 f .clamped
          [BitVec.ofNat 8 s.sup.set.vMax, BitVec.ofNat 8 (s.sup.set.vMax / 256)]
          { s with sup := { s.sup with vReq := s.sup.set.vMax } }))

/-- INPUT_SET (R84, R85): a changed polarity re-reads its pin with no edge; a changed filter time restarts a filter that
runs.  That one whose time did not change runs on is the model's reading (log 24), that BAD_VALUE goes before WRONG_STATE its
choice (log 45). -/
def Obligations.InputSet : Prop :=
  ∀ (pl extra : List Byte) (s : State), pl.length = 6 →
    let f : Frame := ⟨.line, pl, extra⟩
    let flag (i k : Nat) : Bool := (field pl i 1).testBit k
    let c : InputSettings :=
      ⟨field pl 0 1, field pl 1 1, field pl 2 1, field pl 3 1, flag 4 0, flag 4 1, flag 4 2, flag 4 3, flag 4 4,
        flag 5 0, flag 5 1⟩
    let old := s.tracker.set
    let ok : Prop := field pl 0 1 ≤ 15 ∧ field pl 1 1 ≤ 15 ∧ field pl 2 1 ≤ 15 ∧ field pl 3 1 ≤ 15 ∧
      field pl 4 1 ≤ 31 ∧ field pl 5 1 ≤ 3
    let sameWires : Prop := (∀ sw, polarityOf c sw = polarityOf old sw) ∧ c.estopPol = old.estopPol ∧
      c.infeedReversed = old.infeedReversed ∧ c.outfeedReversed = old.outfeedReversed
    let filter (sw : Switch) : Filter :=
      if polarityOf c sw = polarityOf old sw then
        { filterOf s.tracker sw with
          timer := (filterOf s.tracker sw).timer.map fun left =>
            if filterTimeOf c sw = filterTimeOf old sw then left else filterTimeOf c sw }
      else ⟨pinOf s.pins sw == polarityOf c sw, none⟩
    (¬ok → exec (.inputSet f) s = .next (answered 0x1B f .badValue [] s)) ∧
    (ok → ¬sameWires → ¬Bare s → exec (.inputSet f) s = .next (answered 0x1B f .wrongState [] s)) ∧
    (ok → sameWires ∨ Bare s →
      ∃ t, exec (.inputSet f) s = .next t ∧ t.ports = (answered 0x1B f .ok [] s).ports ∧ t.tracker.set = c ∧
        (∀ sw, filterOf t.tracker sw = filter sw) ∧ t.monitor.estop = (s.pins.estop == c.estopPol) ∧
        ((s.pins.estop == c.estopPol) = s.monitor.estop → JointFlags s →
          t = { s with
            ports := t.ports,
            tracker := { s.tracker with
              set := c, bladeHome := filter .bladeHome, hoodUp := filter .hoodUp, hoodDown := filter .hoodDown,
              jointDetector := filter .jointDetector } }))

/-- RECIPE_SET (R125), its checks in their order. -/
def Obligations.RecipeSet : Prop :=
  ∀ (pl extra : List Byte) (s : State), pl.length = 26 →
    let f : Frame := ⟨.line, pl, extra⟩
    let r : Recipe :=
      { valid := true, tBase := field pl 2 2, inc := ⟨field pl 4 2, field pl 6 2, field pl 8 2, field pl 10 2⟩,
        vNom := field pl 12 2, dMin := field pl 14 3, dMax := field pl 17 3, tScorch := field pl 20 2,
        tStandby := field pl 22 2, band := field pl 24 1, settle := field pl 25 1 }
    let ok : Prop := (500 ≤ r.tBase ∧ r.tBase ≤ 2000) ∧ (∀ z, r.inc.get z ≤ 1000) ∧ 1 ≤ r.vNom ∧ r.dMin < r.dMax ∧
      (∀ z, r.tBase + r.inc.get z < r.tScorch) ∧ r.tScorch ≤ 2500 ∧ r.tStandby < r.tBase ∧ 1 ≤ r.band ∧ 1 ≤ r.settle
    (3 < field pl 0 1 ∨ 1 < field pl 1 1 → exec (.recipeSet f) s = .next (answered 0x14 f .badValue [] s)) ∧
    (field pl 1 1 = 1 → ¬ok → exec (.recipeSet f) s = .next (answered 0x14 f .badValue [] s)) ∧
    ∀ i : Fin 4, field pl 0 1 = i.val → (field pl 1 1 = 0 ∨ field pl 1 1 = 1 ∧ ok) →
      let inUse : Prop := s.dose.tunnelRecipe = some i ∨ s.dose.pendingRecipe = some i ∨
        ∃ o ∈ s.queue.orders, o.recipe = i
      let old := s.dose.recipes.get i
      let entry : Recipe := if field pl 1 1 = 1 then r else { old with valid := false }
      (inUse → exec (.recipeSet f) s = .next (answered 0x14 f .inUse [] s)) ∧
      (¬inUse →
        exec (.recipeSet f) s =
          .next (answered 0x14 f .ok [if old.valid then 1 else 0]
            { s with dose := { s.dose with recipes := s.dose.recipes.set i entry } }))

/-! ### The line (chapter 10) -/

/-- LINE_START (R178): its checks; and, while a used zone of the run's recipe has not settled, the line WARMING with the
tunnel recipe of the run and the zones at their compensated targets. -/
def Obligations.LineStart : Prop :=
  ∀ (extra : List Byte) (s : State),
    let f : Frame := ⟨.line, [], extra⟩
    let faulted : Prop := ∃ z, (s.zones.get z).state = .tripped ∨ (s.zones.get z).state = .probeFault
    (s.sup.line ≠ .stopped ∨ s.queue.orders = [] ∨ s.former.retractAfterTrip = true ∨ faulted ∨ s.monitor.estop = true →
      exec (.lineStart f) s = .next (answered 0x10 f .wrongState [] s)) ∧
    (∀ o os, s.sup.line = .stopped → s.queue.orders = o :: os → s.former.retractAfterTrip = false → ¬faulted →
      s.monitor.estop = false →
      let run : Option (Fin 4) := if tunnelHoldsPanel s = true then s.dose.tunnelRecipe else some o.recipe
      (∀ i, run = some i → ∃ z, (s.dose.recipes.get i).inc.get z ≠ 0 ∧
        (s.zones.get z).settle < (s.dose.recipes.get i).settle) →
      ∃ t, exec (.lineStart f) s = .next t ∧
        t.ports = (answered 0x10 f .ok [match run with | none => 255 | some i => BitVec.ofNat 8 i.val] s).ports ∧
        t.sup.line = .warming ∧ t.sup.prev = .stopped ∧ t.dose.tunnelRecipe = run ∧
        t.router = s.router.map (notePort .lineState [1, 0, 0]) ∧
        ∀ i z, run = some i → (t.zones.get z).target = runTarget (s.dose.recipes.get i) s.sup.vPlanRun z)

/-- LINE_STOP in every line state (R181); what stops the line at once drops every speed to 0 (R182). -/
def Obligations.LineStop : Prop :=
  ∀ (m : Byte) (extra : List Byte) (c : Instr) (s : State),
    let f : Frame := ⟨.line, [m], extra⟩
    let l := s.sup.line
    let work : Prop := s.former.panel ≠ none ∨ s.former.state = .bridge ∨
      (s.former.state = .held ∧ s.former.resume = some .bridge)
    c = .lineStopImmediate f ∨ c = .lineStopEndOfPanel f →
      (1 < m.toNat → exec c s = .next (answered 0x11 f .badValue [] s)) ∧
      (m.toNat ≤ 1 → l = .stopped ∨ l = .tripped → exec c s = .next (answered 0x11 f .wrongState [] s)) ∧
      (m.toNat ≤ 1 → l = .stopping → exec c s = .next (answered 0x11 f .ok [] s)) ∧
      (m = 1 → l = .running ∨ l = .holding → work →
        exec c s = .next (answered 0x11 f .accepted [] { s with sup := { s.sup with stopPending := true } })) ∧
      (m.toNat ≤ 1 → l = .warming ∨ l = .lowering ∨ ((l = .running ∨ l = .holding) ∧ (m = 0 ∨ ¬work)) →
        ∃ t, exec c s = .next t ∧ t.ports = (answered 0x11 f .ok [] s).ports ∧
          (t.sup.line = .stopping ∨ t.sup.line = .stopped) ∧ t.sup.vPlan = 0 ∧ t.sup.vRef = 0 ∧ t.sup.speedOut = 0 ∧
          t.sup.stopPending = false ∧
          (s.former.state ∈ [.feed, .tuck, .press, .retract] →
            t.sup.line = .stopping ∧ t.sup.prev = l ∧ t.former.state = s.former.state ∧
              t.sup.hoodDelayTimer = s.sup.hoodDelayTimer))

/-- LINE_RESET (R187): refused outside STOPPED and TRIPPED; every block's line-reset values, and what is kept: the former
(R57), the tracker (R100), the queue and the slots' counts (R37, R55), the Dose Tracker (R127, R129, R136), the planner
and the cut scheduler (R173), the zones (R103, R122), the Monitor Unit (R151) and the Supervisor (R175).  That a zone's
duty and window duty become 0 is log 42: the table of R103 says unchanged, the prose of R122 and R115 says 0, and the
model follows the prose; the former's flag reachedInStop is the model's own (log 49). -/
def Obligations.LineReset : Prop :=
  ∀ (extra : List Byte) (s : State),
    let f : Frame := ⟨.line, [], extra⟩
    let lost := bytes2 (s.tracker.table.length + s.tracker.reports.length)
    (s.sup.line ≠ .stopped → s.sup.line ≠ .tripped →
      exec (.lineReset f) s = .next (answered 0x12 f .wrongState [] s)) ∧
    (s.sup.line = .stopped ∨ s.sup.line = .tripped →
      ∃ t, exec (.lineReset f) s = .next t ∧ t.ports = (answered 0x12 f .ok lost s).ports ∧
        t.router = s.router.map (notePort .lineResetDone lost) ∧
        t.tracker = { s.tracker with
          pIn := 0, pOut := 0, high := 0, joints := [], droppedCaptures := 0, droppedMarks := 0, map := [], table := [],
          nextPanel := 0, reports := [], begun := 0, taken := 0 } ∧
        t.queue = { s.queue with orders := [], active := false } ∧
        t.store = { s.store with slots := s.store.slots.map fun sl => { sl with refs := 0 } } ∧
        t.dose = { s.dose with
          tunnelRecipe := none, pendingRecipe := none, cells := List.replicate s.dose.tunnel.n none,
          nextShift := BitVec.ofNat 32 s.dose.tunnel.pitch } ∧
        t.former =
          { state := .idle, resume := none, hold := .none, panel := none, step := none, rep := 0, depth := 0,
            target := 0, trigger := none, late := false, reachedInStop := false, cIn := 0, cOut := 0, timer := none,
            bridgeTarget := none, retractAfterTrip := false, bladeSide := false, set := s.former.set } ∧
        t.roll =
          { geo := s.roll.geo,
            planner :=
              { status := none, state := .idle, forced := false, pFire := none, stretch := none, freeze := none,
                outcome := .noneMade, expected := none, jointDue := none, firedSinceArm := false, pulse := none },
            cut := { state := .idle, target := none, midpoint := false, point := none, fired := false, pulse := none } } ∧
        (∀ z, t.zones.get z =
          { s.zones.get z with
            target := 0, blank := 5, settle := 0, duty := 0, windowDuty := 0, valve := false }) ∧
        t.settledReported = false ∧
        (∀ z, t.monitor.zones.get z =
          { s.monitor.zones.get z with
            blank := (s.monitor.zones.get z).blankSet,
            targetChanged := (s.monitor.zones.get z).targetChanged || decide ((s.monitor.zones.get z).hold = .target) }) ∧
        t.monitor = { s.monitor with zones := t.monitor.zones, breakTimer := none } ∧
        t.sup = { s.sup with
          stopPending := false, causes := ⟨false, false, false⟩, formerLimit := none, spliceLimit := false, vPlan := 0,
          vRef := 0, speedOut := 0 } ∧
        t.pins = s.pins ∧ t.pending = s.pending ∧ t.free = s.free)

/-- SPEED_UPDATE (R185): v_plan_run, the former's limit as R72 and R73 give it, and v_heat as R135 gives it, as the update
takes them; the ramp and the output on a line that stays RUNNING with the hood DOWN; the break timer by the new v_ref
(R147). -/
def Obligations.SpeedUpdate : Prop :=
  ∀ s : State,
    let limit := formerSpeed s
    let run := min (min s.sup.vReq s.sup.set.vMax) (min (limit.getD 65535)
      (if s.sup.spliceLimit = true then s.roll.geo.vSplice else 65535))
    let m := s.monitor
    s.sup.vReq ≤ 65535 → s.sup.set.vMax ≤ 65535 →
    ∃ heat t, IsHeatLimit s heat ∧ exec .speedUpdate s = .next t ∧ t.sup.formerLimit = limit ∧ t.sup.vPlanRun = run ∧
      t.sup.updateTimer = 100 ∧ t.sup.vHeat = heat ∧
      t.sup.speedOut = t.sup.vRef * 4095 / s.sup.set.vMax ∧ t.sup.vRef ≤ min run heat ∧
      (s.sup.line ≠ .running → s.sup.line ≠ .holding → s.sup.line ≠ .warming → t.sup.vRef = 0) ∧
      (s.sup.line = .running → s.sup.hood = .down → s.sup.causes = ⟨false, false, false⟩ → 0 < heat →
        s.former.state ≠ .bridge →
        let target := min run heat
        t.sup.line = .running ∧ t.sup.vPlan = run ∧
          t.sup.vRef = if target ≤ s.sup.vRef then target else min target (s.sup.vRef + s.sup.set.accel)) ∧
      t.monitor.breakTimer =
        if t.sup.vRef < m.vBreakMin then none
        else if m.vBreakMin ≠ 0 ∧ t.sup.line ≠ .tripped ∧ m.breakTimer = none then some (m.breakTime * 100)
        else m.breakTimer

/-- The trip causes ESTOP, FEED_TIMEOUT, BLADE_JAM, WEB_BREAK and HOOD_FAULT (R67, R69, R147, R148, R177, R183): from every
line state but TRIPPED the line trips, with the former's abort (R76, R79), the end of a cancel-pending order (R49), the end
of a splice that has not fired (R167), the zones' T_standby, and the events of each; a line already TRIPPED keeps its
recorded cause and raises TRIP again, with p_out as it then stands, the model's reading (log 47).  An emergency stop input
that goes inactive, or is active already, is recorded and nothing more (R148). -/
def Obligations.Trips : Prop :=
  (∀ (high : Bool) (s : State), (high == s.tracker.set.estopPol) = false ∨ s.monitor.estop = true → JointFlags s →
    exec (.estopChange high) s =
      .next { s with
        pins := { s.pins with estop := high }, monitor := { s.monitor with estop := high == s.tracker.set.estopPol } }) ∧
  ∀ (c : Instr) (cause : TripCause) (s : State),
    (c = .estopChange (s.tracker.set.estopPol) ∧ cause = .estop ∧ s.monitor.estop = false) ∨
    (c = .feedTimeout ∧ cause = .feedTimeout ∧ s.former.state = .feed ∧ s.former.timer ≠ none) ∨
    (c = .bladeJam ∧ cause = .bladeJam ∧ s.former.state = .retract ∧ s.former.timer ≠ none) ∨
    (c = .breakTimerExpiry ∧ cause = .webBreak ∧ s.monitor.breakTimer ≠ none) ∨
    (c = .hoodTimerExpiry ∧ cause = .hoodFault ∧ s.sup.hoodTimer ≠ none) →
    ∃ t, exec c s = .next t ∧
      (s.sup.line ≠ .tripped → TrippedBy cause s t) ∧
      (s.sup.line = .tripped →
        t.sup.line = .tripped ∧ t.sup.tripCause = s.sup.tripCause ∧ t.former.state = s.former.state ∧
          t.router = s.router.map (notePort .trip ([BitVec.ofNat 8 (tripCauseCode cause), 6] ++ posBytes s.tracker.pOut)))

/-! ### Zones and monitors (chapters 6 to 8) -/

/-- ZONE_SET with its four rows (R104 to R106): the ranges, the four steps in order, the response.  What a settling that
follows may change of a zone, its target, blank count and settle count, is left out of the comparison. -/
def Obligations.ZoneSet : Prop :=
  ∀ (pl extra : List Byte) (c : Instr) (s : State), pl.length = 11 →
    let f : Frame := ⟨.line, pl, extra⟩
    let enable := field pl 1 1
    let arm := field pl 2 1
    let ok : Prop := field pl 0 1 ≤ 3 ∧ enable ≤ 2 ∧ arm ≤ 1 ∧ field pl 4 2 ≤ 1000 ∧ field pl 6 2 ≤ 1000 ∧
      1 ≤ field pl 8 1 ∧ (1 ≤ field pl 9 1 ∧ field pl 9 1 ≤ 60) ∧ (1 ≤ field pl 10 1 ∧ field pl 10 1 ≤ 120)
    c ∈ [Instr.zoneSet f, .zoneDisable f, .zoneArm f, .zoneEnable f] →
      (¬ok → exec c s = .next (answered 0x15 f .badValue [] s)) ∧
      ∀ z : Fin 4, ok → field pl 0 1 = z.val →
        let q := s.zones.get z
        let cap := if q.state = .soft then min (field pl 6 2) (field pl 4 2) else field pl 4 2
        let capped : Zone :=
          { q with
            gain := field pl 3 1, dutyMax := field pl 4 2, softDuty := field pl 6 2, softTime := field pl 8 1,
            purgeDelay := field pl 9 1, purgeTime := field pl 10 1, duty := min q.duty cap,
            windowDuty := min q.windowDuty cap,
            valve := q.valve && !(decide (cap < q.windowDuty) && decide (cap ≤ 1000 - q.windowTimer)) }
        let afterDisable : Zone :=
          if enable = 0 ∧ q.state ≠ .off then
            { capped with state := .off, held := false, duty := 0, windowDuty := 0, valve := false, soft := 0, hi := 0,
                          purge := 0 }
          else capped
        let armed := afterDisable.armed || (decide (arm = 1) && decide (afterDisable.state = .off))
        let final : Zone :=
          if enable = 1 ∧ q.state = .off then
            { afterDisable with state := if armed then .soft else .regulating, armed := false, soft := 0, hi := 0,
                                purge := 0 }
          else { afterDisable with armed := armed }
        ∃ t, exec c s = .next t ∧
          t.ports = (answered 0x15 f .ok
            [BitVec.ofNat 8 z.val, BitVec.ofNat 8 (zoneStateCode final.state), if final.armed then 1 else 0] s).ports ∧
          zoneWork (t.zones.get z) = zoneWork final ∧
          (∀ y, y ≠ z → zoneWork (t.zones.get y) = zoneWork (s.zones.get y)) ∧
          (enable = 0 → q.state ≠ .off → t.monitor.test ≠ some z ∧ (t.monitor.zones.get z).hold = .none)

/-- MONITOR_SET with its two rows (R138, R144, R147).  Bytes 4..7 of the zone form's response are as the request leaves
them, the model's choice (log 20). -/
def Obligations.MonitorSet : Prop :=
  ∀ (pl extra : List Byte) (c : Instr) (s : State),
    let f : Frame := ⟨.line, pl, extra⟩
    let n := field pl 1 1
    let vBreak := field pl 2 2
    let time := field pl 4 1
    c = .monitorSetZone f ∨ c = .monitorSetLine f →
      (pl.length = 5 ∨ pl.length = 6 → 4 < field pl 0 1 → exec c s = .next (answered 0x16 f .badValue [] s)) ∧
      (pl.length = 5 → field pl 0 1 ≤ 3 → exec c s = .next (answered 0x16 f .badLength [] s)) ∧
      (pl.length = 6 → field pl 0 1 = 4 → exec c s = .next (answered 0x16 f .badLength [] s)) ∧
      (pl.length = 6 → field pl 0 1 ≤ 3 → 4 < n ∨ 2500 < vBreak ∨ 60 < time ∨ field pl 5 1 < 1 ∨ 15 < field pl 5 1 →
        exec c s = .next (answered 0x16 f .badValue [] s)) ∧
      (∀ (z : Fin 4) (m : MonitorMode), pl.length = 6 → field pl 0 1 = z.val → n = monitorModeCode m → vBreak ≤ 2500 →
        time ≤ 60 → 1 ≤ field pl 5 1 → field pl 5 1 ≤ 15 →
        let k := s.monitor.zones.get z
        let k' : ZoneMonitor :=
          { k with mode := m, tLimit := vBreak, blankSet := time, deglitchSet := field pl 5 1,
                   acted := k.acted && decide (m = k.mode), deglitch := if m = .off then 0 else k.deglitch }
        exec c s =
          .next (answered 0x16 f .ok
            (byte1 z.val ++ byte1 (monitorModeCode k.mode) ++ bytes2 k.tLimit ++ byte1 (monitorFlags s.monitor z) ++
              byte1 k.blank ++ byte1 k'.deglitch ++ byte1 (tripHoldCode k.hold))
            { s with monitor := { s.monitor with zones := s.monitor.zones.set z k' } })) ∧
      (pl.length = 5 → field pl 0 1 = 4 → (1 ≤ n ∧ n ≤ 9) ∨ time = 0 →
        exec c s = .next (answered 0x16 f .badValue [] s)) ∧
      (pl.length = 5 → field pl 0 1 = 4 → n = 0 ∨ 10 ≤ n → 1 ≤ time →
        let m := s.monitor
        let ended : Prop := n ≠ m.interval ∧ n = 0
        ∃ t, exec c s = .next t ∧ t.monitor.interval = n ∧
          t.monitor.intervalCount = (if n = m.interval then m.intervalCount else 0) ∧
          t.monitor.vBreakMin = vBreak ∧ t.monitor.breakTime = time ∧
          t.monitor.breakTimer = (if vBreak = 0 then none else m.breakTimer.map fun _ => time * 100) ∧
          (ended → t.monitor.test = none) ∧ (¬ended → t.monitor.test = m.test) ∧
          (∀ z, t.zones.get z =
            { s.zones.get z with held := (s.zones.get z).held && !(decide ended && decide (m.test = some z)) }) ∧
          t = { answered 0x16 f .ok
              (byte1 m.interval ++ byte1 m.position.val ++ byte1 (orNone255 t.monitor.test)) s with
            monitor := t.monitor, zones := t.zones })

/-- FAULT_CLEAR on the zones and on the line (R149, R184). -/
def Obligations.FaultClear : Prop :=
  ∀ (extra : List Byte) (s : State),
    let f : Frame := ⟨.line, [], extra⟩
    let held (z : Fin 4) : Bool := decide ((s.zones.get z).state = .tripped)
    let k (z : Fin 4) := s.monitor.zones.get z
    let freed (z : Fin 4) : Bool :=
      held z && (decide ((k z).hold = .latch) || decide ((k z).hold = .target) && (k z).targetChanged)
    let sound (z : Fin 4) : Bool := decide ((s.zones.get z).state = .probeFault) && (k z).probeFlagged
    let left (z : Fin 4) : Bool := held z && decide ((k z).hold = .target) && !(k z).targetChanged
    (s.sup.line = .tripped → s.monitor.estop = true →
      exec (.faultClear f) s = .next (answered 0x17 f .wrongState [] s)) ∧
    (s.sup.line ≠ .tripped ∨ s.monitor.estop = false →
      ∃ t, exec (.faultClear f) s = .next t ∧
        t.ports = (answered 0x17 f .ok (byte1 (zoneSet freed) ++ byte1 (zoneSet sound) ++ byte1 (zoneSet left)) s).ports ∧
        (∀ z, zoneWork (t.zones.get z) = zoneWork
          (if freed z || sound z then
            { s.zones.get z with state := .regulating, duty := 0, hi := 0, held := false }
          else s.zones.get z)) ∧
        (∀ z, (t.monitor.zones.get z).warn = false ∧ (t.monitor.zones.get z).retry = false ∧
          (t.monitor.zones.get z).probeFlagged = false ∧
          (t.monitor.zones.get z).hold = if freed z then .none else (k z).hold) ∧
        (s.sup.line ≠ .tripped → t.tracker.high = s.tracker.high) ∧
        (s.sup.line = .tripped → s.former.state ≠ .bridge →
          t.sup.line = .stopped ∧ t.sup.prev = .tripped ∧ t.sup.tripCause = none ∧ t.sup.hoodDown = false ∧
            t.tracker.high = s.tracker.pOut))

/-- PROBE_SAMPLE (R110, R111, R140, R141): the reading, the monitor's judgement of it, and ZONE_FAULT, raised exactly when
the monitor acts. -/
def Obligations.ProbeSample : Prop :=
  ∀ (z : Fin 4) (result : Nat) (s : State),
    let q := s.zones.get z
    let k := s.monitor.zones.get z
    let now := if s.monitor.test = some z ∨ q.state = .probeFault then q.measured else min 2500 result
    let counts : Prop := k.mode ≠ .off ∧ atWork q.state ∧ k.blank = 0 ∧ k.tLimit < now
    let read : Zone := { q with measured := now, probeTimer := 100 }
    let acts : Prop := counts ∧ k.deglitchSet ≤ k.deglitch + 1 ∧ k.acted = false
    let fault (kind : Nat) : List Byte := le1 z.val ++ le1 kind ++ le2 now ++ le2 q.target
    ∃ t, exec (.probeSample z result) s = .next t ∧ (t.zones.get z).measured = now ∧ (t.zones.get z).probeTimer = 100 ∧
      (∀ y, y ≠ z → zoneWork (t.zones.get y) = zoneWork (s.zones.get y)) ∧
      (¬counts → zoneWork (t.zones.get z) = zoneWork read ∧ (t.monitor.zones.get z).deglitch = 0 ∧
        (t.monitor.zones.get z).acted = false ∧ (s.monitor.test = some z →
          t.monitor.testLatest = some (if 2550 ≤ result then result else min 2500 result))) ∧
      (counts → k.deglitch + 1 < k.deglitchSet →
        zoneWork (t.zones.get z) = zoneWork read ∧ (t.monitor.zones.get z).deglitch = k.deglitch + 1) ∧
      (counts → k.deglitchSet ≤ k.deglitch + 1 → k.acted = false → k.mode = .warn →
        zoneWork (t.zones.get z) = zoneWork read ∧ (t.monitor.zones.get z).warn = true ∧
          (t.monitor.zones.get z).acted = true) ∧
      (counts → k.deglitchSet ≤ k.deglitch + 1 → k.acted = false → k.mode ≠ .warn →
        (t.zones.get z).state = .tripped ∧ (t.zones.get z).duty = 0 ∧ (t.zones.get z).windowDuty = 0 ∧
          (t.zones.get z).valve = false ∧ t.monitor.test ≠ some z ∧
          monitorModeCode k.mode = tripHoldCode (t.monitor.zones.get z).hold) ∧
      (acts →
        (k.mode = .warn → Noted .zoneFault (fault 1) s t) ∧
        (k.mode = .retry → (t.monitor.zones.get z).retry = true ∧ Noted .zoneFault (fault 2) s t) ∧
        (k.mode = .latch → Noted .zoneFault (fault 3) s t) ∧
        (k.mode = .target → Noted .zoneFault (fault 4) s t ∧
          (s.sup.line ≠ .warming → (t.monitor.zones.get z).targetChanged = false))) ∧
      (¬acts → Unnoted .zoneFault s t)

/-- REGULATION_PERIOD (R107, R112, R113, R117, R118, R139, R143, R145).  What a settling that follows may change of a zone,
its target, blank count and settle count, is left out of the comparison of the whole zone; these, the settled condition and
ZONES_SETTLED (R120, R121) are said apart, for a line and a former that no settling moves.  ZONE_PURGE is raised exactly on
entry to PURGE (R117), PROBE_OPEN exactly when a test finds the probe open (R145). -/
def Obligations.RegulationPeriod : Prop :=
  ∀ (z : Fin 4) (s : State),
    let q := s.zones.get z
    let m := s.monitor
    let quietHere : Prop := m.test ≠ some z
    let done (q' : Zone) (t : State) : Prop := zoneWork (t.zones.get z) = zoneWork { q' with regTimer := 1000 }
    ∃ t, exec (.regulationPeriod z) s = .next t ∧
      (∀ y, y ≠ z → zoneWork (t.zones.get y) = zoneWork (s.zones.get y)) ∧
      -- the two blank counts, the settle count, and what the settled condition comes to
      (s.sup.line ≠ .warming → s.former.state ≠ .bridge →
        let q' := t.zones.get z
        let inBand (r : Recipe) : Prop := q.measured ≤ q.target + r.band ∧ q.target ≤ q.measured + r.band
        q'.target = q.target ∧ q'.blank = q.blank - 1 ∧
        (t.monitor.zones.get z).blank = (m.zones.get z).blank - 1 ∧
        (∀ y, y ≠ z → t.zones.get y = s.zones.get y ∧ t.monitor.zones.get y = m.zones.get y) ∧
        (∀ i, s.dose.tunnelRecipe = some i → atWork q.state → q'.state = .soft ∨ q'.state = .regulating → q.blank ≤ 1 →
          inBand (s.dose.recipes.get i) → q'.settle = min 255 (q.settle + 1)) ∧
        (¬(∃ i, s.dose.tunnelRecipe = some i ∧ atWork q.state ∧ (q'.state = .soft ∨ q'.state = .regulating) ∧
            q.blank ≤ 1 ∧ inBand (s.dose.recipes.get i)) → q'.settle = 0) ∧
        t.settledReported = settledCondition t ∧
        (∀ i, s.dose.tunnelRecipe = some i → s.settledReported = false → t.settledReported = true →
          Noted .zonesSettled
            (le1 i.val ++ le1 (zoneSet fun y => decide ((s.dose.recipes.get i).inc.get y ≠ 0))) s t) ∧
        (s.settledReported = true ∨ t.settledReported = false → Unnoted .zonesSettled s t)) ∧
      -- ZONE_PURGE
      (q.state ≠ .purge → (t.zones.get z).state = .purge →
        Noted .zonePurge (le1 z.val ++ le2 q.measured ++ le2 q.target) s t) ∧
      (quietHere → q.state = .purge ∨ (t.zones.get z).state ≠ .purge → Unnoted .zonePurge s t) ∧
      (quietHere → Unnoted .probeOpen s t) ∧
      (q.state = .off ∨ (q.state = .tripped ∧ (m.zones.get z).hold ≠ .retry) ∨ q.state = .probeFault → quietHere →
        done q t) ∧
      (q.state = .purge → quietHere → q.purge + 1 < q.purgeTime → done { q with purge := q.purge + 1 } t) ∧
      (q.state = .purge → quietHere → q.purgeTime ≤ q.purge + 1 →
        done { q with state := .regulating, duty := 0, hi := 0, purge := 0 } t) ∧
      (q.state = .regulating → quietHere → s.dose.tunnelRecipe = none → done { q with duty := 0, hi := 0 } t) ∧
      (∀ i, s.dose.tunnelRecipe = some i → quietHere →
        let d := nextDuty q.dutyMax q
        let dSoft := nextDuty (min q.softDuty q.dutyMax) q
        let hot : Prop := q.target + (s.dose.recipes.get i).band < q.measured ∧ q.blank ≤ 1
        (q.state = .regulating → ¬(hot ∧ d = 0) → done { q with duty := d, hi := 0 } t) ∧
        (q.state = .regulating → hot ∧ d = 0 → q.hi + 1 < q.purgeDelay → done { q with duty := 0, hi := q.hi + 1 } t) ∧
        (q.state = .regulating → hot ∧ d = 0 → q.purgeDelay ≤ q.hi + 1 →
          done { q with state := .purge, hi := 0, duty := 0, windowDuty := 0, valve := false, purge := 0 } t) ∧
        (q.state = .soft → q.soft + 1 < q.softTime → done { q with duty := dSoft, soft := q.soft + 1 } t) ∧
        (q.state = .soft → q.softTime ≤ q.soft + 1 → ¬(hot ∧ dSoft = 0) →
          done { q with state := .regulating, duty := dSoft, soft := 0, hi := 0 } t)) ∧
      (q.state = .tripped → (m.zones.get z).hold = .retry → quietHere →
        q.measured ≤ (m.zones.get z).tLimit - tunnelBand s →
        done { q with state := .regulating, duty := 0, hi := 0, held := false } t ∧ (t.monitor.zones.get z).hold = .none) ∧
      (∀ r, m.test = some z → m.testPeriods ≠ 0 → m.testLatest = some r → atWork q.state →
        t.monitor.test = none ∧
        (r < 2550 → (t.zones.get z).held = false ∧ atWork (t.zones.get z).state ∧ Unnoted .probeOpen s t) ∧
        (2550 ≤ r → (t.zones.get z).state = .probeFault ∧ (t.zones.get z).duty = 0 ∧ (t.zones.get z).valve = false ∧
          (t.zones.get z).held = q.held ∧ (t.monitor.zones.get z).probeFlagged = true ∧
          Noted .probeOpen (le1 z.val) s t)) ∧
      (m.test = some z → m.testPeriods = 0 →
        t.monitor.test = some z ∧ t.monitor.testPeriods = 1 ∧ Unnoted .probeOpen s t)

/-- DOSE_SAMPLE (R131). -/
def Obligations.DoseSample : Prop :=
  ∀ s : State,
    (s.sup.hood = .up ∨ s.dose.tunnelRecipe = none →
      exec .doseSample s = .next { s with dose := { s.dose with sampleTimer := 100 } }) ∧
    (∀ i, s.sup.hood ≠ .up → s.dose.tunnelRecipe = some i →
      ∃ t, exec .doseSample s = .next t ∧
        t = { s with dose := { s.dose with cells := t.dose.cells, sampleTimer := 100 } } ∧
        t.dose.cells.length = s.dose.cells.length ∧
        ∀ (n : Nat) (c : Option Cell), s.dose.cells[n]? = some c →
          let q := s.zones.get (zoneOfCell s.dose.tunnel n)
          (c = none → t.dose.cells[n]? = some none) ∧
          (∀ x, c = some x → q.state = .probeFault →
            t.dose.cells[n]? = some (some { x with unverified := true })) ∧
          (∀ x, c = some x → q.state ≠ .probeFault →
            t.dose.cells[n]? = some (some { x with
              dose := min 16777215 (x.dose + (q.measured - (s.dose.recipes.get i).tBase)),
              peak := max x.peak q.measured })))

/-! ### The roll change (chapter 9) -/

/-- ROLL_STATUS (R153, R154): its checks, and the status it leaves.  With the planner IDLE or in APPROACH no search is
made; in PLANNING and SCHEDULED a search follows under the new status (R158 to R162), said wherever no bridge could end by
it.  That BAD_VALUE goes before BUSY is the model's choice (log 45), that a pleated length of count 0 keeps a stretch
joined its reading (log 18). -/
def Obligations.RollStatusRequest : Prop :=
  ∀ (pl extra : List Byte) (s : State), pl.length = 4 →
    let f : Frame := ⟨.roll, pl, extra⟩
    let n := field pl 0 4
    let p := s.roll.planner
    let deadline := s.tracker.pIn + BitVec.ofNat 32 n - BitVec.ofNat 32 s.roll.geo.reserve
    let status (low : Bool) : Planner := { p with status := some ⟨s.tracker.pIn, n, low⟩ }
    let low : Prop := p.state = .idle ∧ n < s.roll.geo.low
    (2147483647 < n → exec (.rollStatus f) s = .next (answered 0x30 f .badValue [] s)) ∧
    (n ≤ 2147483647 → p.state = .fired → exec (.rollStatus f) s = .next (answered 0x30 f .busy [] s)) ∧
    (n ≤ 2147483647 → p.state ≠ .fired →
      ∃ t, exec (.rollStatus f) s = .next t ∧
        t.ports = (answered 0x30 f .ok (posBytes s.tracker.pIn ++ posBytes deadline) s).ports ∧
        (p.state = .idle ∨ p.state = .approach → JointFlags s →
          t = { s with
            ports := t.ports, roll := { s.roll with planner := status (decide low) },
            router := if low then s.router.map (notePort .rollLow (bytes4 n)) else s.router }) ∧
        (p.state = .planning ∨ (p.state = .scheduled ∧ s.former.state ≠ .bridge) → JointFlags s →
          t = { searched { s with roll := { s.roll with planner := status false } } with ports := t.ports }))

/-- SPLICE_ARM, SPLICE_FORCE and SPLICE_CANCEL (R157, R161, R166).  An arm makes the search at once: the stretches ahead laid
out from the former, the first that may be chosen taken, its fire position, the freeze and SPLICE_SCHEDULED, APPROACH when
it is near, and with none found the forced splice at the deadline (R158 to R162).  That a pleated length of count 0 keeps a
stretch joined is the model's reading (log 18); that BUSY is answered before WRONG_STATE where both
hold is the model's choice (log 35). -/
def Obligations.SpliceRequests : Prop :=
  ∀ (extra : List Byte) (s : State),
    let f : Frame := ⟨.roll, [], extra⟩
    let p := s.roll.planner
    let g := s.roll.geo
    let unfrozen : RunQueue := { s.queue with orders := s.queue.orders.map fun o => { o with frozen := false } }
    (p.state ≠ .idle → exec (.spliceArm f) s = .next (answered 0x31 f .busy [] s)) ∧
    (p.state = .idle → s.sup.line = .tripped ∨ p.status = none →
      exec (.spliceArm f) s = .next (answered 0x31 f .wrongState [] s)) ∧
    (p.state = .idle → s.sup.line ≠ .tripped → p.status ≠ none →
      ∃ t, exec (.spliceArm f) s = .next t ∧
        t.ports = (answered 0x31 f .accepted [BitVec.ofNat 8 (plannerStateCode t.roll.planner.state)] s).ports ∧
        (t.roll.planner.state = .planning ∨ t.roll.planner.state = .scheduled ∨ t.roll.planner.state = .approach) ∧
        t.roll.planner.firedSinceArm = false ∧
        (JointFlags s →
          let armed : State := { s with roll := { s.roll with planner := { p with
            state := .planning, forced := false, firedSinceArm := false } } }
          t = { searched armed with ports := t.ports })) ∧
    (p.state = .approach ∨ p.state = .fired → exec (.spliceForce f) s = .next (answered 0x32 f .busy [] s)) ∧
    (p.state ≠ .approach → p.state ≠ .fired → s.sup.line = .tripped →
      exec (.spliceForce f) s = .next (answered 0x32 f .wrongState [] s)) ∧
    (p.state ≠ .approach → p.state ≠ .fired → s.sup.line ≠ .tripped →
      let fire := s.tracker.pIn + BitVec.ofNat 32 g.a
      let forced : Planner :=
        { p with
          state := .approach, forced := true, pFire := some fire, stretch := none, freeze := none,
          jointDue := some (fire + BitVec.ofNat 32 g.lSf - BitVec.ofNat 32 g.lDf),
          firedSinceArm := p.firedSinceArm && decide (p.state ≠ .idle) }
      exec (.spliceForce f) s =
        .next (answered 0x32 f .accepted (posBytes fire)
          { s with
            queue := unfrozen, roll := { s.roll with planner := forced }, sup := { s.sup with spliceLimit := true },
            router := s.router.map (notePort .spliceScheduled (posBytes fire ++ [1])) })) ∧
    (p.state = .fired ∨ (p.state = .idle ∧ p.firedSinceArm = true) →
      exec (.spliceCancel f) s = .next (answered 0x33 f .tooLate [] s)) ∧
    (p.state = .idle → p.firedSinceArm = false →
      exec (.spliceCancel f) s = .next (answered 0x33 f .wrongState [] s)) ∧
    (p.state = .planning ∨ p.state = .scheduled ∨ p.state = .approach →
      ∃ t, exec (.spliceCancel f) s = .next t ∧ t.ports = (answered 0x33 f .ok [] s).ports ∧
        t.roll.planner.state = .idle ∧ t.roll.planner.pFire = none ∧ t.roll.planner.stretch = none ∧
        t.roll.planner.jointDue = none ∧ t.roll.planner.freeze = none ∧ t.sup.spliceLimit = false ∧
        ∀ o ∈ t.queue.orders, o.frozen = false)

/-- CUT_REQUEST NEXT_END and FORCE, and CUT_CANCEL (R168, R169, R171, R172).  Three things are the model's choice: that a
request without a target, a cancel and a FORCE clear the midpoint, and a FORCE the cut point too (log 15, DEDUCED); that
a PANEL_START moved back before the target by reverse motion counts as less than cut_offset after it, half of the signed
distance rounded down (log 43); and that a record in any state is flagged CUT_THROUGH (log 44). -/
def Obligations.CutRequests : Prop :=
  ∀ (m : Byte) (extra : List Byte) (c : Instr) (s : State),
    let f : Frame := ⟨.roll, [m], extra⟩
    let g : Frame := ⟨.roll, [], extra⟩
    let k := s.roll.cut
    let waiting : Cut := ⟨.waiting, none, false, none, false, k.pulse⟩
    let knife := s.roll.geo.lK
    (c = .cutRequestNextEnd f ∨ c = .cutRequestForce f →
      (1 < m.toNat → exec c s = .next (answered 0x34 f .badValue [] s)) ∧
      (m = 0 → k.state ≠ .idle → exec c s = .next (answered 0x34 f .busy [] s)) ∧
      (m = 0 → k.state = .idle → (∀ x ∈ s.tracker.map, x.kind ≠ .panelEnd) →
        exec c s = .next (answered 0x34 f .accepted [0] { s with roll := { s.roll with cut := waiting } })) ∧
      (∀ before e later n, m = 0 → k.state = .idle → s.tracker.map = before ++ e :: later →
        (∀ x ∈ before, x.kind ≠ .panelEnd) → e.kind = .panelEnd → e.panel = some n →
        let at' (point : Pos) (mid : Bool) : State :=
          { s with roll := { s.roll with
            cut := { waiting with target := some ⟨e.pos, n⟩, midpoint := mid, point := some point } } }
        let plain := e.pos + BitVec.ofNat 32 (knife + s.roll.geo.cutOffset)
        ((∀ x ∈ later, x.kind ≠ .panelStart) → exec c s = .next (answered 0x34 f .accepted [1] (at' plain false))) ∧
        (∀ mids p rest, later = mids ++ p :: rest → (∀ x ∈ mids, x.kind ≠ .panelStart) → p.kind = .panelStart →
          let d : Int := (p.pos - e.pos).toInt
          let middle := e.pos + BitVec.ofNat 32 knife + BitVec.ofInt 32 (d / 2)
          (s.roll.geo.cutOffset ≤ d → exec c s = .next (answered 0x34 f .accepted [1] (at' plain false))) ∧
          (d < s.roll.geo.cutOffset → exec c s = .next (answered 0x34 f .accepted [1] (at' middle true))))) ∧
      (m = 1 → k.state = .fired → exec c s = .next (answered 0x34 f .busy [] s)) ∧
      (m = 1 → k.state ≠ .fired →
        let x := s.tracker.pOut - BitVec.ofNat 32 knife
        let cut' : Cut := ⟨.fired, none, false, none, true, some (s.roll.geo.cutPulse * 10)⟩
        let done (num : BitVec 16) (flag : Byte) (table : List PanelRec) : State :=
          { s with
            roll := { s.roll with cut := cut' }, tracker := { s.tracker with table := table },
            router := s.router.map (notePort .cutDone (posBytes s.tracker.pOut ++ [1] ++ panelBytes num ++ [flag])) }
        ((∀ r ∈ s.tracker.table, covers x r = false) →
          exec c s = .next (answered 0x34 f .ok [] (done 0 0 s.tracker.table))) ∧
        (∀ before r after, s.tracker.table = before ++ r :: after → (∀ q ∈ before, covers x q = false) →
          covers x r = true → (∀ q ∈ before ++ after, q.number ≠ r.number) →
          exec c s =
            .next (answered 0x34 f .ok [] (done r.number 1 (before ++ { r with cutThrough := true } :: after)))))) ∧
    (k.state = .waiting →
      exec (.cutCancel g) s =
        .next (answered 0x35 g .ok []
          { s with roll := { s.roll with
            cut := { k with state := .idle, target := none, midpoint := false, point := none } } })) ∧
    (k.state = .fired ∨ (k.state = .idle ∧ k.fired = true) →
      exec (.cutCancel g) s = .next (answered 0x35 g .tooLate [] s)) ∧
    (k.state = .idle → k.fired = false → exec (.cutCancel g) s = .next (answered 0x35 g .wrongState [] s))

/-! ### Counts, switches and timers -/

/-- INFEED_COUNT.  Both or no inputs changed give no count; a count moves p_in by one either way (R81, R85).  What waits on
p_in then acts: a stroke in FEED ends at its target (R67); LEAD, FLAT and TAIL end at theirs (R65, R71), TAIL with the
panel's end, and a bridge that waited for a joint due ends when the joint's span has passed (R78, R164); the boundary test
follows and starts a panel or a bridge or holds the line STARVED or TRACK_FULL (R62, R64, R77, R180); joints arrive and
pass (R88, R89, R164); a scheduled splice comes into approach and fires (R162), and a fired one goes unseen (R163); ROLL_LOW
is raised (R154) and an exhausted roll trips the line (R155), a splice still in planning being forced first when that is
due (R160, R161).  Where several blocks act at one count the order is the model's choice (log 9); each clause names what
else must not be waiting.  More of it is the model's reading: that a splice that is due fires before the roll runs out at
the same count, so that no ROLL_OUT trip follows (log 33); that a splice gone unseen leaves no fire position, stretch and
freeze (log 14) and its kind as it stands (log 39); that the estimate under ROLL_LOW is worked out from the present p_in
(log 52); that a hood delay of 0 leaves its timer stopped (log 38); and that a panel's end and the next one's start are one
step, with no cancel between them (log 50). -/
def Obligations.InfeedCount : Prop :=
  ∀ (a b : Bool) (s : State),
    let pins : Pins := { s.pins with infeedA := a, infeedB := b }
    let one : Prop := (a ≠ s.pins.infeedA ∧ b = s.pins.infeedB) ∨ (a = s.pins.infeedA ∧ b ≠ s.pins.infeedB)
    let forward := countsForward s.tracker.set.infeedReversed s.pins.infeedA s.pins.infeedB a b
    let p := if forward then s.tracker.pIn + 1 else s.tracker.pIn - 1
    let m : State := { s with pins := pins, tracker := { s.tracker with pIn := p } }
    let f := s.former
    let plan := s.roll.planner
    let g := s.roll.geo
    let plannerStill : Prop := plan.state = .idle ∧ plan.status = none ∧ plan.jointDue = none ∧ s.tracker.joints = []
    let atTarget : Prop := reached p f.target = true
    let follows : Prop := FormerRests m ∧ f.state ≠ .bridge
    let noJoint : Prop := s.tracker.joints = [] ∧
      ∀ x, plan.jointDue = some x → reached p (x + BitVec.ofNat 32 (g.lDf + g.j)) = false
    let notOut : Prop := ∀ r, plan.status = some r → reached p (runsOutAt r) = false
    let runsClear : Prop := s.sup.line = .running ∧ s.sup.causes = ⟨false, false, false⟩
    (¬one → exec (.infeedCount a b) s = .next { s with pins := pins }) ∧
    (one → ∃ t, exec (.infeedCount a b) s = .next t ∧ t.pins = pins ∧ t.tracker.pIn = p ∧
      t.tracker.pOut = s.tracker.pOut ∧ t.zones.map zoneWork = s.zones.map zoneWork ∧ t.ports = s.ports ∧
      (plannerStill → f.state = .idle → t = m) ∧
      (plannerStill → f.state = .feed → p = f.target → t.former.state = .tuck ∧ t.former.timer = some f.set.tuck) ∧
      -- the ends of LEAD and FLAT (R65, R66)
      (plannerStill → f.state = .lead → atTarget → stepRuns 0 m → t = stepEntered 0 m) ∧
      (∀ i st, plannerStill → f.state = .flat → atTarget → f.step = some i → (patternAhead s).steps[i]? = some st →
        let n := countOf f st.width
        (f.rep + 1 < st.rep → lengthRuns n →
          t = { m with former := { f with
            rep := f.rep + 1, target := p + BitVec.ofNat 32 n, cIn := carryOf f st.width } }) ∧
        (st.rep ≤ f.rep + 1 → stepRuns (i + 1) m → t = stepEntered (i + 1) m)) ∧
      -- the end of TAIL: the panel ends (R71); a pending END_OF_PANEL stop acts on it (R181, R182), or the boundary test
      -- finds the next work
      (∀ n, plannerStill → f.state = .tail → atTarget → f.panel = some n →
        (∃ later, t.tracker.map = s.tracker.map ++ ⟨.panelEnd, s.tracker.pOut, some n⟩ :: later) ∧
        (∀ r ∈ s.tracker.table, r.number = n →
          ∃ r' ∈ t.tracker.table, r'.number = n ∧ r'.pInEnd = some p ∧ r'.pOutEnd = some s.tracker.pOut ∧
            r'.state = .travelling) ∧
        (s.sup.stopPending = true → s.sup.line = .running →
          t.sup.line = .stopped ∧ t.sup.prev = .stopping ∧ t.sup.vRef = 0 ∧ t.former.state = .idle ∧
          t.former.panel = none ∧ t.former.step = none ∧ t.tracker = (panelEnded n m).tracker ∧
          t.queue = (panelEnded n m).queue) ∧
        (s.sup.stopPending = false → runsClear → BoundaryTaken (panelEnded n m) t)) ∧
      -- the end of a bridge that waited for a joint due
      (∀ i x, plan.state = .idle → plan.status = none → s.tracker.joints = [] → plan.jointDue = some x →
        reached p (x + BitVec.ofNat 32 (g.lDf + g.j)) = true → f.state = .bridge → f.bridgeTarget = some i →
        s.dose.tunnelRecipe = some i → s.settledReported = true →
        (∃ later, t.tracker.map = s.tracker.map ++ ⟨.bridgeEnd, s.tracker.pOut, none⟩ :: later) ∧
        t.roll.planner.jointDue = none ∧
        (s.sup.stopPending = true → s.sup.line = .running →
          t.sup.line = .stopped ∧ t.sup.prev = .stopping ∧ t.sup.vRef = 0 ∧ t.former.state = .idle ∧
          t.former.bridgeTarget = none ∧ t.tracker = (bridgeEnded m).tracker) ∧
        (s.sup.stopPending = false → runsClear → BoundaryTaken (bridgeEnded m) t)) ∧
      -- joints arrive at the former and pass into it
      (plan.state = .idle → plan.status = none → follows → t = jointsMoved m) ∧
      -- a splice comes into approach, fires, and goes unseen
      (∀ x, plan.state = .scheduled → plan.pFire = some x → reached p (x - BitVec.ofNat 32 g.a) = true →
        reached p x = false → follows → noJoint → notOut →
        t = { m with
          roll := { s.roll with planner := { plan with state := .approach } },
          sup := { s.sup with spliceLimit := true } }) ∧
      (∀ x, plan.state = .approach ∨ (plan.state = .scheduled ∧ reached p (x - BitVec.ofNat 32 g.a) = true) →
        plan.pFire = some x → reached p x = true → s.sup.line ≠ .tripped → follows → noJoint →
        let e := x + BitVec.ofNat 32 g.lSf - BitVec.ofNat 32 g.lDf
        after p (e + BitVec.ofNat 32 g.wDet) = false →
        t = { m with
          roll := { s.roll with planner := { plan with
            state := .fired, firedSinceArm := true, expected := some e, pulse := some (g.splicePulse * 10) } },
          sup := { s.sup with spliceLimit := s.sup.spliceLimit || decide (plan.state = .scheduled) } }) ∧
      (∀ x, plan.state = .fired → plan.expected = some x → after p (x + BitVec.ofNat 32 g.wDet) = true → follows →
        s.tracker.joints = [] → reached p (x + BitVec.ofNat 32 g.lDf) = false →
        reached p (x + BitVec.ofNat 32 (g.lDf + g.j)) = false →
        t = { m with
          queue := { s.queue with orders := s.queue.orders.map fun o => { o with frozen := false } },
          router := s.router.map (notePort .spliceFailed ([1] ++ posBytes (plan.pFire.getD 0))),
          tracker := { m.tracker with joints := [⟨x, true, false⟩] },
          roll := { s.roll with planner := { plan with
            state := .idle, status := none, pFire := none, stretch := none, freeze := none, expected := none,
            jointDue := some x } },
          sup := { s.sup with spliceLimit := false } }) ∧
      -- the roll runs low, and runs out
      (∀ r, plan.state = .idle → plan.status = some r → follows → noJoint → notOut →
        let left := (runsOutAt r - p).toNat
        let low := decide (r.lowRaised = false ∧ left < g.low)
        t = { m with
          roll := { s.roll with planner := { plan with status := some { r with lowRaised := r.lowRaised || low } } },
          router := if low = true then s.router.map (notePort .rollLow (bytes4 left)) else s.router }) ∧
      (∀ r, plan.status = some r → reached p (runsOutAt r) = true → s.sup.line ≠ .tripped → follows →
        s.tracker.joints = [] →
        (plan.state = .idle ∨ (plan.state = .planning ∧ 0 < g.a ∧ g.a < 2 ^ 31) ∨
          ((plan.state = .scheduled ∨ plan.state = .approach) ∧ ∀ x, plan.pFire = some x → reached p x = false)) →
        let forced : Prop :=
          plan.state = .planning ∧ reached p (deadlineAt g r - BitVec.ofNat 32 g.a) = true
        (forced → TrippedBy .rollOut (splicedByForce m) t) ∧ (¬forced → TrippedBy .rollOut m t) ∧
          t.roll.planner.status = none))

/-- OUTFEED_COUNT (R81, R82, R91, R130, R147, R170): p_out, the high-water mark, the cell shift, a waiting cut; marks moved
back and the reverse trip.  What waits on p_out then acts: a stroke starts at its trigger in WAIT (R66) or is made late
(R70; log 36), and during a stop its trigger is kept as reached (R74; log 49); a cell that leaves the ring is judged and folded
into its panel's record (R132, R133), a record in any state among them, the model's reading (log 44); the oldest mark passes the knife, with its panel's report (R92, R95, R96); a drained
tunnel takes the pending recipe (R128).  A knife that fires raises CUT_DONE with the target's panel (R170).  Where several
blocks act at one count the order is the model's choice (log 10); each clause names what else must not be waiting.  The
whole next state of a reverse count says two more things that are the model's reading: a waiting cut's target position and
cut point stand where they were taken while the marks are moved back (logs 34 and 43). -/
def Obligations.OutfeedCount : Prop :=
  ∀ (a b : Bool) (s : State),
    let pins : Pins := { s.pins with outfeedA := a, outfeedB := b }
    let one : Prop := (a ≠ s.pins.outfeedA ∧ b = s.pins.outfeedB) ∨ (a = s.pins.outfeedA ∧ b ≠ s.pins.outfeedB)
    let forward := countsForward s.tracker.set.outfeedReversed s.pins.outfeedA s.pins.outfeedB a b
    let d := s.dose
    let on := s.tracker.pOut + 1
    let high := if after on s.tracker.high then on else s.tracker.high
    let backP := s.tracker.pOut - 1
    let run := (s.tracker.high - backP).toNat
    let ranFar : Prop := d.tunnel.pitch < run ∧ run < 2 ^ 31 ∧ s.sup.line ≠ .tripped
    let marks := s.tracker.map.map fun m => if after m.pos backP then { m with pos := backP } else m
    let m : State := { s with
      pins := pins, tracker := { s.tracker with pOut := on, high := high },
      monitor := { s.monitor with breakTimer := s.monitor.breakTimer.map fun _ => s.monitor.breakTime * 100 } }
    let f := s.former
    let shift : List (Option Cell) :=
      some ⟨d.nextShift - BitVec.ofNat 32 d.tunnel.pitch - BitVec.ofNat 32 d.tunnel.lTe, 0, 0, false⟩ :: d.cells.dropLast
    let shifted : Dose := { d with nextShift := d.nextShift + BitVec.ofNat 32 d.tunnel.pitch, cells := shift }
    let cutStill : Prop := ∀ c, s.roll.cut.state = .waiting → s.roll.cut.point = some c → reached on c = false
    let short (x : Mark) : Prop := reached on (x.pos + BitVec.ofNat 32 s.roll.geo.lK) = false
    let marksStill : Prop := ∀ x rest, s.tracker.map = x :: rest → short x
    (¬one → exec (.outfeedCount a b) s = .next { s with pins := pins }) ∧
    (one → forward = true →
      ∃ t, exec (.outfeedCount a b) s = .next t ∧ t.pins = pins ∧ t.tracker.pIn = s.tracker.pIn ∧
        t.tracker.pOut = on ∧ t.tracker.high = high ∧
        (on = d.nextShift →
          t.dose.nextShift = d.nextShift + BitVec.ofNat 32 d.tunnel.pitch ∧ t.dose.cells = shift) ∧
        (on ≠ d.nextShift → t.dose.nextShift = d.nextShift ∧ t.dose.cells = d.cells) ∧
        (∀ c, s.roll.cut.state = .waiting → s.roll.cut.point = some c → reached on c = true →
          t.roll.cut.state = .fired ∧ t.roll.cut.fired = true ∧
            t.roll.cut.pulse = some (s.roll.geo.cutPulse * 10) ∧
            (∀ x, s.roll.cut.target = some x → Noted .cutDone (le4 on.toNat ++ le1 0 ++ le2 x.panel.toNat ++ le1 1) s t) ∧
            (s.roll.cut.target = none → Noted .cutDone (le4 on.toNat ++ le1 0 ++ le2 0 ++ le1 0) s t)) ∧
        ((∀ c, s.roll.cut.point = some c → s.roll.cut.state ≠ .waiting ∨ reached on c = false) →
          Unnoted .cutDone s t) ∧
        (on ≠ d.nextShift → f.state = .idle → s.tracker.map = [] → d.pendingRecipe = none → s.roll.cut.point = none →
          t = m) ∧
        -- a count that nothing waits for, a stroke's start in WAIT, and a trigger reached during a stroke or a stop
        (on ≠ d.nextShift → cutStill → marksStill → d.pendingRecipe = none → JointFlags s →
          (FormerRests m → t = m) ∧
          (∀ i st, f.state = .wait → f.step = some i → (patternAhead s).steps[i]? = some st → triggerMet m →
            strokeRuns f st f.rep → t = strokeStarted st m) ∧
          (f.state = .tuck ∨ f.state = .press ∨ (f.state = .feed ∧ reached s.tracker.pIn f.target = false) ∨
              (f.state = .retract ∧ s.tracker.bladeHome.level = false) →
            triggerMet m → t = { m with former := { f with late := true } }) ∧
          (f.state = .held → f.resume = some .wait → triggerMet m →
            t = { m with former := { f with reachedInStop := true } })) ∧
        -- the cell that leaves the ring at a shift
        (on = d.nextShift → cutStill → marksStill → d.pendingRecipe = none → JointFlags s → FormerRests m →
          (∀ i c before r later, d.tunnelRecipe = some i → d.cells.getLast? = some (some c) →
            s.tracker.table = before ++ r :: later → (∀ q ∈ before, ¬inPanel c.start q) → inPanel c.start r →
            t = { m with
              dose := shifted,
              tracker := { m.tracker with
                table := s.tracker.table.map fun q =>
                  if q.number = r.number then foldedInto (verdictOf (d.recipes.get i) c) c q else q } }) ∧
          ((d.tunnelRecipe = none ∨ (∀ c, d.cells.getLast? ≠ some (some c)) ∨
              ∀ c, d.cells.getLast? = some (some c) → ∀ r ∈ s.tracker.table, ¬inPanel c.start r) →
            t = { m with dose := shifted })) ∧
        -- the oldest mark passes the knife, with no panel's report to make, with one, and with one that must wait
        (∀ x rest, on ≠ d.nextShift → cutStill → s.tracker.map = x :: rest → ¬short x →
          (∀ y ys, rest = y :: ys → short y) → d.pendingRecipe = none → JointFlags s → FormerRests m →
          heldAtBoundary f = false → s.roll.planner.state ≠ .planning →
          (x.kind ≠ .panelEnd ∨ (∀ n, x.panel = some n → ∀ r ∈ s.tracker.table, r.number ≠ n) →
            t = { m with tracker := { m.tracker with map := rest } }) ∧
          (∀ n before r later, x.kind = .panelEnd → x.panel = some n → s.tracker.table = before ++ r :: later →
            r.number = n → (∀ q ∈ before, q.number ≠ n) → s.tracker.reports.length < 16 →
            (∀ w ∈ s.tracker.table, w.state ≠ .waitingReport) →
            t = { m with
              tracker := { m.tracker with
                map := rest, table := before ++ later, reports := s.tracker.reports ++ [finalReport r] },
              router := if s.tracker.reports = [] then s.router.map (notePort .reportReady [1]) else s.router }) ∧
          (∀ n before w later, x.kind = .panelEnd → x.panel = some n →
            16 ≤ s.tracker.reports.length ∨ (∃ q ∈ s.tracker.table, q.state = .waitingReport) →
            (∃ r ∈ s.tracker.table, r.number = n) →
            let table := s.tracker.table.map fun q => if q.number = n then { q with state := .waitingReport } else q
            table = before ++ w :: later → (∀ q ∈ before, q.state ≠ .waitingReport) → w.state = .waitingReport →
            t = { m with
              tracker := { m.tracker with map := rest, table := table },
              router := s.router.map (notePort .reportQueueFull (panelBytes w.number)) })) ∧
        -- the pending recipe, while the tunnel is not drained and once it is
        (∀ i, on ≠ d.nextShift → cutStill → marksStill → d.pendingRecipe = some i → JointFlags s → FormerRests m →
          (¬tunnelDrained m → t = m) ∧
          (tunnelDrained m →
            let r := d.recipes.get i
            let target (z : Fin 4) : Nat := targetIn r s.sup.line s.sup.vPlanRun z
            (∃ z, r.inc.get z ≠ 0 ∧ (handed (target z) (s.zones.get z)).settle < r.settle) →
            (∀ z, t.zones.get z = handed (target z) (s.zones.get z)) ∧
            (∀ z, t.monitor.zones.get z =
              handedMonitor (target z) (s.zones.get z) (s.monitor.zones.get z)) ∧
            t = { m with
              dose := { d with tunnelRecipe := some i, pendingRecipe := none },
              zones := t.zones, monitor := { m.monitor with zones := t.monitor.zones }, settledReported := false }))) ∧
    (one → forward = false → ¬ranFar → JointFlags s →
      exec (.outfeedCount a b) s =
        .next { s with pins := pins, tracker := { s.tracker with pOut := backP, map := marks } }) ∧
    (one → forward = false → ranFar →
      ∃ t, exec (.outfeedCount a b) s = .next t ∧ t.pins = pins ∧ t.tracker.pOut = backP ∧
        TrippedBy .webReverse { s with pins := pins, tracker := { s.tracker with pOut := backP, map := marks } } t)

/-- SWITCH_PIN_CHANGE and FILTER_EXPIRY (R83): the chatter filter, and what an edge does at once: blade home ends a
retraction after a trip (R76) and ends RETRACT, with the pleat counted and the former moving on or pausing while the line
stops (R69, R70, R74, R182); a hood switch re-derives the hood state for its own command (R177), and the hood seen down
takes LOWERING to RUNNING, where the former resumes, at once with a stroke whose trigger was reached before or in the stop
(log 49), or an IDLE one makes its boundary test, which starts a panel or a bridge or holds the line STARVED or TRACK_FULL
(R62, R64, R77), or to HOLDING (R74, R75, R179, R180); the joint detector captures, a capture past the fourth is counted as
dropped (R86), and one in the window is the splice seen, with its deviation (R163).  That a hood delay of 0 leaves its timer
stopped is the model's reading (log 38). -/
def Obligations.SwitchFilters : Prop :=
  (∀ (sw : Switch) (high : Bool) (s : State),
    let level := high == polarityOf s.tracker.set sw
    let q := filterOf s.tracker sw
    let time := filterTimeOf s.tracker.set sw
    let moved : State := { s with pins := setPin sw high s.pins }
    (pinOf s.pins sw = high → exec (.switchPinChange sw high) s = .next s) ∧
    (pinOf s.pins sw ≠ high → time ≠ 0 →
      exec (.switchPinChange sw high) s =
        .next (onFilter sw (fun _ => ⟨q.level, if level = q.level then none else some time⟩) moved)) ∧
    (pinOf s.pins sw ≠ high → time = 0 →
      ∃ t, exec (.switchPinChange sw high) s = .next t ∧ t.pins = moved.pins ∧
        filterOf t.tracker sw = ⟨level, none⟩ ∧
        exec (.filterExpiry sw) (onFilter sw (fun q => { q with timer := some 0 }) moved) = .next t)) ∧
  ∀ (sw : Switch) (s : State), (filterOf s.tracker sw).timer ≠ none →
    let level := pinOf s.pins sw == polarityOf s.tracker.set sw
    let edge : Prop := level ≠ (filterOf s.tracker sw).level
    let m : State := onFilter sw (fun _ => ⟨level, none⟩) s
    let l := s.sup.line
    (¬edge → exec (.filterExpiry sw) s = .next (onFilter sw (fun q => { q with timer := none }) s)) ∧
    (edge → ∃ t, exec (.filterExpiry sw) s = .next t ∧ filterOf t.tracker sw = ⟨level, none⟩ ∧
      (∀ sw', sw' ≠ sw → filterOf t.tracker sw' = filterOf s.tracker sw') ∧ t.pins = s.pins ∧ t.ports = s.ports ∧
      (sw = .bladeHome → level = true → t.former.retractAfterTrip = false) ∧
      (sw = .hoodUp → s.sup.hoodDown = false → t.sup.hood = if level then .up else .raising) ∧
      (sw = .jointDetector → level = true →
        t.tracker.joints =
          (if s.tracker.joints.length < 4 then s.tracker.joints ++ [⟨s.tracker.pIn, false, false⟩]
          else s.tracker.joints) ∧
        t.tracker.droppedCaptures =
          if s.tracker.joints.length < 4 then s.tracker.droppedCaptures
          else min 255 (s.tracker.droppedCaptures + 1)) ∧
      (sw = .jointDetector → level = true → ∀ x, s.roll.planner.state = .fired → s.roll.planner.expected = some x →
        inWindow s.roll.geo s.tracker.pIn x = true →
        let off := (s.tracker.pIn - x).toInt
        let held := max (-8388608) (min 8388607 off)
        t.roll.planner.state = .idle ∧ t.roll.planner.status = none ∧ t.roll.planner.jointDue = some s.tracker.pIn ∧
          t.sup.spliceLimit = false ∧
          Noted .spliceDone
            (le4 s.tracker.pIn.toNat ++ le3 (held % 16777216).toNat ++
              le1 (wt (decide ((s.roll.geo.tol : Int) < off ∨ off < -(s.roll.geo.tol : Int))) 1)) s t) ∧
      ((∀ x, s.roll.planner.state = .fired → s.roll.planner.expected = some x → sw = .jointDetector → level = true →
        inWindow s.roll.geo s.tracker.pIn x = false) → Unnoted .spliceDone s t) ∧
      -- blade home active in RETRACT: the stroke ends
      (∀ i st, sw = .bladeHome → level = true → s.former.state = .retract → s.former.step = some i →
        (patternAhead s).steps[i]? = some st → JointFlags s →
        StrokeEnded i st { m with former := { s.former with retractAfterTrip := false } } t) ∧
      -- the switch of the other direction plays no part; the one that counts sets the hood state
      ((sw = .hoodUp ∧ s.sup.hoodDown = true) ∨ (sw = .hoodDown ∧ s.sup.hoodDown = false) → JointFlags s → t = m) ∧
      (sw = .hoodDown → s.sup.hoodDown = true → level = false ∨ l ≠ .lowering → JointFlags s →
        let hood : HoodState := if level = true then .down else .lowering
        t = if s.sup.hood = hood then m
          else { m with sup := { s.sup with
            hood := hood, hoodTimer := if level = true then none else some (s.sup.set.hoodTimeout * 1000),
            vRef := if s.sup.hood = .down then 0 else s.sup.vRef,
            speedOut := if s.sup.hood = .down then 0 else s.sup.speedOut } }) ∧
      -- the hood seen down ends LOWERING
      (sw = .hoodDown → s.sup.hoodDown = true → level = true → l = .lowering →
        let f := s.former
        let causes := s.sup.causes
        let clear : Prop := causes = ⟨false, false, false⟩
        let run : Prop := t.sup.line = .running ∧ t.sup.prev = .lowering ∧ t.sup.hood = .down
        (¬clear → f.state ≠ .bridge →
          t.sup.line = .holding ∧ t.sup.prev = .running ∧ t.sup.causes = causes ∧ t.sup.vPlan = 0 ∧ t.sup.vRef = 0 ∧
            t.sup.speedOut = 0 ∧ t.former = f) ∧
        (clear → f.state ≠ .idle → f.state ≠ .held → f.state ≠ .bridge → run ∧ t.former = f) ∧
        (∀ r, clear → f.state = .held → f.hold = .stoppedMid → f.resume = some r → r ≠ .bridge →
          FormerRests { m with former := { f with state := r } } →
          (r = .wait → f.late = false ∧ f.reachedInStop = false) →
          run ∧ t.former = { f with state := r, resume := none, hold := .none, reachedInStop := false }) ∧
        -- a trigger already reached, before or in the stop, starts its stroke at once
        (∀ i st, clear → f.state = .held → f.hold = .stoppedMid → f.resume = some .wait → f.step = some i →
          (patternAhead s).steps[i]? = some st → strokeRuns f st f.rep → JointFlags s →
          f.late = true ∨ f.reachedInStop = true ∨ triggerMet s →
          let resumed : Former := { f with state := .wait, resume := none, hold := .none, reachedInStop := false }
          let u := strokeStarted st { m with former := resumed }
          run ∧ t.former = u.former ∧ t.tracker = u.tracker ∧
            ∀ p, (t.router.get p).records[6]? = (u.router.get p).records[6]?) ∧
        -- an IDLE former makes its boundary test
        (clear → f.state = .idle → f.panel = none →
          BoundaryTaken m t ∧ (t.sup.line = .running → run))))

/-- TUCK_END and PRESS_END (R68, R69, R70, R74): with the blade home already, RETRACT ends at its entry, the pleat counted and
the former moved on, or paused while the line stops. -/
def Obligations.StrokePhases : Prop :=
  (∀ (s : State) (st : StepRec), s.former.state = .tuck → s.former.timer ≠ none → currentStep s = some st →
    JointFlags s →
    exec .tuckEnd s = .next { s with former := { s.former with state := .press, timer := some st.press } }) ∧
  (∀ s : State, s.former.state = .press → s.former.timer ≠ none → s.tracker.bladeHome.level = false → JointFlags s →
    let late : Prop := ∃ x, s.former.trigger = some x ∧ reached s.tracker.pOut x = true
    ∃ t, exec .pressEnd s = .next t ∧
      t = { s with former := { s.former with
        state := .retract, timer := some s.former.set.retractTimeout, late := t.former.late } } ∧
      (late → t.former.late = true) ∧ (¬late → t.former.late = s.former.late)) ∧
  (∀ (s : State) (i : Nat) (st : StepRec), s.former.state = .press → s.former.timer ≠ none →
    s.tracker.bladeHome.level = true → s.former.step = some i → (patternAhead s).steps[i]? = some st → JointFlags s →
    ∃ t, exec .pressEnd s = .next t ∧ StrokeEnded i st s t) ∧
  ∀ (s : State) (st : StepRec) (n : BitVec 16) (r : PanelRec), s.former.state = .press → s.former.timer ≠ none →
    s.tracker.bladeHome.level = true → s.sup.line = .stopping → currentStep s = some st →
    s.former.panel = some n → r ∈ s.tracker.table → r.number = n →
    ∃ t, exec .pressEnd s = .next t ∧ t.former.state = .held ∧ t.former.hold = .stoppedMid ∧
      t.former.panel = some n ∧ t.former.timer = none ∧
      ∃ r' ∈ t.tracker.table, r'.number = n ∧ r'.formed = min 65535 (r.formed + 1)

/-- The valve window's start and close (R114), the probe-check timer (R144), the hood delay (R177, R180) and the two
pulses' ends (R162, R170).  That a VALVE_CLOSE has no effect in a window of duty 1000 (log 28) and that the end of the cut
pulse clears the midpoint (log 15) are the model's choices (DEDUCED). -/
def Obligations.TimerExpiries : Prop :=
  (∀ (z : Fin 4) (s : State),
    let q := s.zones.get z
    let works : Prop := s.dose.tunnelRecipe ≠ none ∧ (q.state = .soft ∨ q.state = .regulating)
    (works →
      exec (.valveWindowStart z) s =
        .next { s with
          zones := s.zones.set z { q with windowDuty := q.duty, valve := decide (0 < q.duty), windowTimer := 1000 } }) ∧
    (¬works →
      exec (.valveWindowStart z) s =
        .next { s with zones := s.zones.set z { q with windowDuty := 0, valve := false, windowTimer := 1000 } }) ∧
    (q.windowDuty = 1000 → exec (.valveClose z) s = .next s) ∧
    (q.windowDuty ≠ 1000 →
      exec (.valveClose z) s = .next { s with zones := s.zones.set z { q with valve := false } })) ∧
  (∀ s : State,
    let m := s.monitor
    let n := m.intervalCount + 1
    let free (z : Fin 4) : Prop := atWork (s.zones.get z).state ∧ (m.zones.get z).probeFlagged = false
    let at' (count : Nat) : Monitor := { m with checkTimer := 1000, intervalCount := count }
    (m.interval = 0 → exec .probeCheckTimer s = .next { s with monitor := { m with checkTimer := 1000 } }) ∧
    (n < m.interval → exec .probeCheckTimer s = .next { s with monitor := at' n }) ∧
    (m.interval ≠ 0 → m.interval ≤ n → (∀ z, ¬free z) ∨ m.test ≠ none →
      exec .probeCheckTimer s = .next { s with monitor := at' 0 }) ∧
    (∀ i : Fin 4, m.interval ≠ 0 → m.interval ≤ n → m.test = none → free (m.position + i) →
      (∀ j, j < i → ¬free (m.position + j)) →
      let z := m.position + i
      exec .probeCheckTimer s =
        .next { s with
          monitor := { at' 0 with test := some z, testPeriods := 0, testLatest := none, position := z + 1 },
          zones := s.zones.set z { s.zones.get z with held := true } })) ∧
  (∀ s : State, s.sup.hoodDelayTimer ≠ none →
    ∃ t, exec .hoodDelayExpiry s = .next t ∧ t.sup.hoodDown = false ∧ t.sup.hoodDelayTimer = none ∧
      t.sup.line = s.sup.line ∧ t.sup.hood = (if s.tracker.hoodUp.level then .up else .raising) ∧
      (s.sup.hood = .down → t.sup.vRef = 0 ∧ t.sup.speedOut = 0) ∧
      (s.sup.hood = .down → s.tracker.hoodUp.level = false →
        t.sup.hoodTimer = some (s.sup.set.hoodTimeout * 1000))) ∧
  ∀ s : State,
    exec .splicePulseEnd s =
      .next { s with roll := { s.roll with planner := { s.roll.planner with pulse := none } } } ∧
    (s.roll.cut.pulse ≠ none →
      exec .cutPulseEnd s =
        .next { s with roll := { s.roll with cut := ⟨.idle, none, false, none, s.roll.cut.fired, none⟩ } })

/-! ### Laws every step keeps -/

/-- R98: panels begun are those in the table, in the report queue and taken. -/
def Obligations.AccountingKept : Prop := ∀ s t : State, Accounting s → step s = .next t → Accounting t

/-- R37: reference counts are the orders that name a slot, and a referenced slot is VALID. -/
def Obligations.ReferencesKept : Prop := ∀ s t : State, References s → step s = .next t → References t

/-- R43, R44, R48: the run queue stays well formed. -/
def Obligations.OrdersKept : Prop := ∀ s t : State, Orders s → step s = .next t → Orders t

/-- R43, R62, R86, R88, R90, R93, R96: no collection outgrows its places. -/
def Obligations.CapacityKept : Prop := ∀ s t : State, Capacity s → step s = .next t → Capacity t

/-- R102, R113, R114: the valve duty law. -/
def Obligations.DutyKept : Prop := ∀ s t : State, Duty s → step s = .next t → Duty t

/-- R186: the speed law. -/
def Obligations.SpeedKept : Prop := ∀ s t : State, Speed s → step s = .next t → Speed t

/-- R60, R61: the carries stay below their denominators. -/
def Obligations.CarriesKept : Prop := ∀ s t : State, Carries s → step s = .next t → Carries t

/-- R26, R27, R30, R32: the router's records stay well kept. -/
def Obligations.RoutingKept : Prop := ∀ s t : State, Routing s → step s = .next t → Routing t

/-- R89: an ENTERING joint and a pleated step never stand together with the panel unflagged. -/
def Obligations.JointFlagsKept : Prop := ∀ s t : State, JointFlags s → step s = .next t → JointFlags t

/-- R126, R129 to R131: the ring keeps its N cells, each dose within 24 bits. -/
def Obligations.RingKept : Prop := ∀ s t : State, Ring s → step s = .next t → Ring t

/-- Every law holds at reset. -/
def Obligations.LawsAtReset : Prop :=
  Accounting State.reset ∧ References State.reset ∧ Orders State.reset ∧ Capacity State.reset ∧ Duty State.reset ∧
    Speed State.reset ∧ Carries State.reset ∧ Routing State.reset ∧ JointFlags State.reset ∧ Ring State.reset
end

