-- ==== Sys2Proof/Laws/State.lean ====
section
/-! SUPPORT. What each change of one block leaves in each field of State: one lemma per field per update, all by rfl. -/

namespace Sys2Proof.Machine

section
variable (s : State)

@[simp] theorem State.onPins_pins (f : Pins → Pins) : (s.onPins f).pins = f s.pins := rfl
@[simp] theorem State.onPins_ports (f : Pins → Pins) : (s.onPins f).ports = s.ports := rfl
@[simp] theorem State.onPins_router (f : Pins → Pins) : (s.onPins f).router = s.router := rfl
@[simp] theorem State.onPins_store (f : Pins → Pins) : (s.onPins f).store = s.store := rfl
@[simp] theorem State.onPins_queue (f : Pins → Pins) : (s.onPins f).queue = s.queue := rfl
@[simp] theorem State.onPins_former (f : Pins → Pins) : (s.onPins f).former = s.former := rfl
@[simp] theorem State.onPins_tracker (f : Pins → Pins) : (s.onPins f).tracker = s.tracker := rfl
@[simp] theorem State.onPins_zones (f : Pins → Pins) : (s.onPins f).zones = s.zones := rfl
@[simp] theorem State.onPins_settledReported (f : Pins → Pins) : (s.onPins f).settledReported = s.settledReported := rfl
@[simp] theorem State.onPins_dose (f : Pins → Pins) : (s.onPins f).dose = s.dose := rfl
@[simp] theorem State.onPins_monitor (f : Pins → Pins) : (s.onPins f).monitor = s.monitor := rfl
@[simp] theorem State.onPins_roll (f : Pins → Pins) : (s.onPins f).roll = s.roll := rfl
@[simp] theorem State.onPins_sup (f : Pins → Pins) : (s.onPins f).sup = s.sup := rfl
@[simp] theorem State.onPins_free (f : Pins → Pins) : (s.onPins f).free = s.free := rfl
@[simp] theorem State.onPins_pending (f : Pins → Pins) : (s.onPins f).pending = s.pending := rfl

@[simp] theorem State.onPort_pins (p : Port) (f : PortState → PortState) : (s.onPort p f).pins = s.pins := rfl
@[simp] theorem State.onPort_ports (p : Port) (f : PortState → PortState) :
    (s.onPort p f).ports = s.ports.set p (f (s.ports.get p)) := rfl
@[simp] theorem State.onPort_router (p : Port) (f : PortState → PortState) : (s.onPort p f).router = s.router := rfl
@[simp] theorem State.onPort_store (p : Port) (f : PortState → PortState) : (s.onPort p f).store = s.store := rfl
@[simp] theorem State.onPort_queue (p : Port) (f : PortState → PortState) : (s.onPort p f).queue = s.queue := rfl
@[simp] theorem State.onPort_former (p : Port) (f : PortState → PortState) : (s.onPort p f).former = s.former := rfl
@[simp] theorem State.onPort_tracker (p : Port) (f : PortState → PortState) : (s.onPort p f).tracker = s.tracker := rfl
@[simp] theorem State.onPort_zones (p : Port) (f : PortState → PortState) : (s.onPort p f).zones = s.zones := rfl
@[simp] theorem State.onPort_settledReported (p : Port) (f : PortState → PortState) :
    (s.onPort p f).settledReported = s.settledReported := rfl
@[simp] theorem State.onPort_dose (p : Port) (f : PortState → PortState) : (s.onPort p f).dose = s.dose := rfl
@[simp] theorem State.onPort_monitor (p : Port) (f : PortState → PortState) : (s.onPort p f).monitor = s.monitor := rfl
@[simp] theorem State.onPort_roll (p : Port) (f : PortState → PortState) : (s.onPort p f).roll = s.roll := rfl
@[simp] theorem State.onPort_sup (p : Port) (f : PortState → PortState) : (s.onPort p f).sup = s.sup := rfl
@[simp] theorem State.onPort_free (p : Port) (f : PortState → PortState) : (s.onPort p f).free = s.free := rfl
@[simp] theorem State.onPort_pending (p : Port) (f : PortState → PortState) : (s.onPort p f).pending = s.pending := rfl

@[simp] theorem State.onRouter_pins (f : Three RouterPort → Three RouterPort) : (s.onRouter f).pins = s.pins := rfl
@[simp] theorem State.onRouter_ports (f : Three RouterPort → Three RouterPort) : (s.onRouter f).ports = s.ports := rfl
@[simp] theorem State.onRouter_router (f : Three RouterPort → Three RouterPort) :
    (s.onRouter f).router = f s.router := rfl
@[simp] theorem State.onRouter_store (f : Three RouterPort → Three RouterPort) : (s.onRouter f).store = s.store := rfl
@[simp] theorem State.onRouter_queue (f : Three RouterPort → Three RouterPort) : (s.onRouter f).queue = s.queue := rfl
@[simp] theorem State.onRouter_former (f : Three RouterPort → Three RouterPort) :
    (s.onRouter f).former = s.former := rfl
@[simp] theorem State.onRouter_tracker (f : Three RouterPort → Three RouterPort) :
    (s.onRouter f).tracker = s.tracker := rfl
@[simp] theorem State.onRouter_zones (f : Three RouterPort → Three RouterPort) : (s.onRouter f).zones = s.zones := rfl
@[simp] theorem State.onRouter_settledReported (f : Three RouterPort → Three RouterPort) :
    (s.onRouter f).settledReported = s.settledReported := rfl
@[simp] theorem State.onRouter_dose (f : Three RouterPort → Three RouterPort) : (s.onRouter f).dose = s.dose := rfl
@[simp] theorem State.onRouter_monitor (f : Three RouterPort → Three RouterPort) :
    (s.onRouter f).monitor = s.monitor := rfl
@[simp] theorem State.onRouter_roll (f : Three RouterPort → Three RouterPort) : (s.onRouter f).roll = s.roll := rfl
@[simp] theorem State.onRouter_sup (f : Three RouterPort → Three RouterPort) : (s.onRouter f).sup = s.sup := rfl
@[simp] theorem State.onRouter_free (f : Three RouterPort → Three RouterPort) : (s.onRouter f).free = s.free := rfl
@[simp] theorem State.onRouter_pending (f : Three RouterPort → Three RouterPort) :
    (s.onRouter f).pending = s.pending := rfl

@[simp] theorem State.onStore_pins (f : Store → Store) : (s.onStore f).pins = s.pins := rfl
@[simp] theorem State.onStore_ports (f : Store → Store) : (s.onStore f).ports = s.ports := rfl
@[simp] theorem State.onStore_router (f : Store → Store) : (s.onStore f).router = s.router := rfl
@[simp] theorem State.onStore_store (f : Store → Store) : (s.onStore f).store = f s.store := rfl
@[simp] theorem State.onStore_queue (f : Store → Store) : (s.onStore f).queue = s.queue := rfl
@[simp] theorem State.onStore_former (f : Store → Store) : (s.onStore f).former = s.former := rfl
@[simp] theorem State.onStore_tracker (f : Store → Store) : (s.onStore f).tracker = s.tracker := rfl
@[simp] theorem State.onStore_zones (f : Store → Store) : (s.onStore f).zones = s.zones := rfl
@[simp] theorem State.onStore_settledReported (f : Store → Store) :
    (s.onStore f).settledReported = s.settledReported := rfl
@[simp] theorem State.onStore_dose (f : Store → Store) : (s.onStore f).dose = s.dose := rfl
@[simp] theorem State.onStore_monitor (f : Store → Store) : (s.onStore f).monitor = s.monitor := rfl
@[simp] theorem State.onStore_roll (f : Store → Store) : (s.onStore f).roll = s.roll := rfl
@[simp] theorem State.onStore_sup (f : Store → Store) : (s.onStore f).sup = s.sup := rfl
@[simp] theorem State.onStore_free (f : Store → Store) : (s.onStore f).free = s.free := rfl
@[simp] theorem State.onStore_pending (f : Store → Store) : (s.onStore f).pending = s.pending := rfl

@[simp] theorem State.onQueue_pins (f : RunQueue → RunQueue) : (s.onQueue f).pins = s.pins := rfl
@[simp] theorem State.onQueue_ports (f : RunQueue → RunQueue) : (s.onQueue f).ports = s.ports := rfl
@[simp] theorem State.onQueue_router (f : RunQueue → RunQueue) : (s.onQueue f).router = s.router := rfl
@[simp] theorem State.onQueue_store (f : RunQueue → RunQueue) : (s.onQueue f).store = s.store := rfl
@[simp] theorem State.onQueue_queue (f : RunQueue → RunQueue) : (s.onQueue f).queue = f s.queue := rfl
@[simp] theorem State.onQueue_former (f : RunQueue → RunQueue) : (s.onQueue f).former = s.former := rfl
@[simp] theorem State.onQueue_tracker (f : RunQueue → RunQueue) : (s.onQueue f).tracker = s.tracker := rfl
@[simp] theorem State.onQueue_zones (f : RunQueue → RunQueue) : (s.onQueue f).zones = s.zones := rfl
@[simp] theorem State.onQueue_settledReported (f : RunQueue → RunQueue) :
    (s.onQueue f).settledReported = s.settledReported := rfl
@[simp] theorem State.onQueue_dose (f : RunQueue → RunQueue) : (s.onQueue f).dose = s.dose := rfl
@[simp] theorem State.onQueue_monitor (f : RunQueue → RunQueue) : (s.onQueue f).monitor = s.monitor := rfl
@[simp] theorem State.onQueue_roll (f : RunQueue → RunQueue) : (s.onQueue f).roll = s.roll := rfl
@[simp] theorem State.onQueue_sup (f : RunQueue → RunQueue) : (s.onQueue f).sup = s.sup := rfl
@[simp] theorem State.onQueue_free (f : RunQueue → RunQueue) : (s.onQueue f).free = s.free := rfl
@[simp] theorem State.onQueue_pending (f : RunQueue → RunQueue) : (s.onQueue f).pending = s.pending := rfl

@[simp] theorem State.onFormer_pins (f : Former → Former) : (s.onFormer f).pins = s.pins := rfl
@[simp] theorem State.onFormer_ports (f : Former → Former) : (s.onFormer f).ports = s.ports := rfl
@[simp] theorem State.onFormer_router (f : Former → Former) : (s.onFormer f).router = s.router := rfl
@[simp] theorem State.onFormer_store (f : Former → Former) : (s.onFormer f).store = s.store := rfl
@[simp] theorem State.onFormer_queue (f : Former → Former) : (s.onFormer f).queue = s.queue := rfl
@[simp] theorem State.onFormer_former (f : Former → Former) : (s.onFormer f).former = f s.former := rfl
@[simp] theorem State.onFormer_tracker (f : Former → Former) : (s.onFormer f).tracker = s.tracker := rfl
@[simp] theorem State.onFormer_zones (f : Former → Former) : (s.onFormer f).zones = s.zones := rfl
@[simp] theorem State.onFormer_settledReported (f : Former → Former) :
    (s.onFormer f).settledReported = s.settledReported := rfl
@[simp] theorem State.onFormer_dose (f : Former → Former) : (s.onFormer f).dose = s.dose := rfl
@[simp] theorem State.onFormer_monitor (f : Former → Former) : (s.onFormer f).monitor = s.monitor := rfl
@[simp] theorem State.onFormer_roll (f : Former → Former) : (s.onFormer f).roll = s.roll := rfl
@[simp] theorem State.onFormer_sup (f : Former → Former) : (s.onFormer f).sup = s.sup := rfl
@[simp] theorem State.onFormer_free (f : Former → Former) : (s.onFormer f).free = s.free := rfl
@[simp] theorem State.onFormer_pending (f : Former → Former) : (s.onFormer f).pending = s.pending := rfl

@[simp] theorem State.onTracker_pins (f : Tracker → Tracker) : (s.onTracker f).pins = s.pins := rfl
@[simp] theorem State.onTracker_ports (f : Tracker → Tracker) : (s.onTracker f).ports = s.ports := rfl
@[simp] theorem State.onTracker_router (f : Tracker → Tracker) : (s.onTracker f).router = s.router := rfl
@[simp] theorem State.onTracker_store (f : Tracker → Tracker) : (s.onTracker f).store = s.store := rfl
@[simp] theorem State.onTracker_queue (f : Tracker → Tracker) : (s.onTracker f).queue = s.queue := rfl
@[simp] theorem State.onTracker_former (f : Tracker → Tracker) : (s.onTracker f).former = s.former := rfl
@[simp] theorem State.onTracker_tracker (f : Tracker → Tracker) : (s.onTracker f).tracker = f s.tracker := rfl
@[simp] theorem State.onTracker_zones (f : Tracker → Tracker) : (s.onTracker f).zones = s.zones := rfl
@[simp] theorem State.onTracker_settledReported (f : Tracker → Tracker) :
    (s.onTracker f).settledReported = s.settledReported := rfl
@[simp] theorem State.onTracker_dose (f : Tracker → Tracker) : (s.onTracker f).dose = s.dose := rfl
@[simp] theorem State.onTracker_monitor (f : Tracker → Tracker) : (s.onTracker f).monitor = s.monitor := rfl
@[simp] theorem State.onTracker_roll (f : Tracker → Tracker) : (s.onTracker f).roll = s.roll := rfl
@[simp] theorem State.onTracker_sup (f : Tracker → Tracker) : (s.onTracker f).sup = s.sup := rfl
@[simp] theorem State.onTracker_free (f : Tracker → Tracker) : (s.onTracker f).free = s.free := rfl
@[simp] theorem State.onTracker_pending (f : Tracker → Tracker) : (s.onTracker f).pending = s.pending := rfl

@[simp] theorem State.onZones_pins (f : Four Zone → Four Zone) : (s.onZones f).pins = s.pins := rfl
@[simp] theorem State.onZones_ports (f : Four Zone → Four Zone) : (s.onZones f).ports = s.ports := rfl
@[simp] theorem State.onZones_router (f : Four Zone → Four Zone) : (s.onZones f).router = s.router := rfl
@[simp] theorem State.onZones_store (f : Four Zone → Four Zone) : (s.onZones f).store = s.store := rfl
@[simp] theorem State.onZones_queue (f : Four Zone → Four Zone) : (s.onZones f).queue = s.queue := rfl
@[simp] theorem State.onZones_former (f : Four Zone → Four Zone) : (s.onZones f).former = s.former := rfl
@[simp] theorem State.onZones_tracker (f : Four Zone → Four Zone) : (s.onZones f).tracker = s.tracker := rfl
@[simp] theorem State.onZones_zones (f : Four Zone → Four Zone) : (s.onZones f).zones = f s.zones := rfl
@[simp] theorem State.onZones_settledReported (f : Four Zone → Four Zone) :
    (s.onZones f).settledReported = s.settledReported := rfl
@[simp] theorem State.onZones_dose (f : Four Zone → Four Zone) : (s.onZones f).dose = s.dose := rfl
@[simp] theorem State.onZones_monitor (f : Four Zone → Four Zone) : (s.onZones f).monitor = s.monitor := rfl
@[simp] theorem State.onZones_roll (f : Four Zone → Four Zone) : (s.onZones f).roll = s.roll := rfl
@[simp] theorem State.onZones_sup (f : Four Zone → Four Zone) : (s.onZones f).sup = s.sup := rfl
@[simp] theorem State.onZones_free (f : Four Zone → Four Zone) : (s.onZones f).free = s.free := rfl
@[simp] theorem State.onZones_pending (f : Four Zone → Four Zone) : (s.onZones f).pending = s.pending := rfl

@[simp] theorem State.onZone_pins (z : Fin 4) (f : Zone → Zone) : (s.onZone z f).pins = s.pins := rfl
@[simp] theorem State.onZone_ports (z : Fin 4) (f : Zone → Zone) : (s.onZone z f).ports = s.ports := rfl
@[simp] theorem State.onZone_router (z : Fin 4) (f : Zone → Zone) : (s.onZone z f).router = s.router := rfl
@[simp] theorem State.onZone_store (z : Fin 4) (f : Zone → Zone) : (s.onZone z f).store = s.store := rfl
@[simp] theorem State.onZone_queue (z : Fin 4) (f : Zone → Zone) : (s.onZone z f).queue = s.queue := rfl
@[simp] theorem State.onZone_former (z : Fin 4) (f : Zone → Zone) : (s.onZone z f).former = s.former := rfl
@[simp] theorem State.onZone_tracker (z : Fin 4) (f : Zone → Zone) : (s.onZone z f).tracker = s.tracker := rfl
@[simp] theorem State.onZone_zones (z : Fin 4) (f : Zone → Zone) :
    (s.onZone z f).zones = s.zones.set z (f (s.zones.get z)) := rfl
@[simp] theorem State.onZone_settledReported (z : Fin 4) (f : Zone → Zone) :
    (s.onZone z f).settledReported = s.settledReported := rfl
@[simp] theorem State.onZone_dose (z : Fin 4) (f : Zone → Zone) : (s.onZone z f).dose = s.dose := rfl
@[simp] theorem State.onZone_monitor (z : Fin 4) (f : Zone → Zone) : (s.onZone z f).monitor = s.monitor := rfl
@[simp] theorem State.onZone_roll (z : Fin 4) (f : Zone → Zone) : (s.onZone z f).roll = s.roll := rfl
@[simp] theorem State.onZone_sup (z : Fin 4) (f : Zone → Zone) : (s.onZone z f).sup = s.sup := rfl
@[simp] theorem State.onZone_free (z : Fin 4) (f : Zone → Zone) : (s.onZone z f).free = s.free := rfl
@[simp] theorem State.onZone_pending (z : Fin 4) (f : Zone → Zone) : (s.onZone z f).pending = s.pending := rfl

@[simp] theorem State.withSettled_pins (b : Bool) : (s.withSettled b).pins = s.pins := rfl
@[simp] theorem State.withSettled_ports (b : Bool) : (s.withSettled b).ports = s.ports := rfl
@[simp] theorem State.withSettled_router (b : Bool) : (s.withSettled b).router = s.router := rfl
@[simp] theorem State.withSettled_store (b : Bool) : (s.withSettled b).store = s.store := rfl
@[simp] theorem State.withSettled_queue (b : Bool) : (s.withSettled b).queue = s.queue := rfl
@[simp] theorem State.withSettled_former (b : Bool) : (s.withSettled b).former = s.former := rfl
@[simp] theorem State.withSettled_tracker (b : Bool) : (s.withSettled b).tracker = s.tracker := rfl
@[simp] theorem State.withSettled_zones (b : Bool) : (s.withSettled b).zones = s.zones := rfl
@[simp] theorem State.withSettled_settledReported (b : Bool) : (s.withSettled b).settledReported = b := rfl
@[simp] theorem State.withSettled_dose (b : Bool) : (s.withSettled b).dose = s.dose := rfl
@[simp] theorem State.withSettled_monitor (b : Bool) : (s.withSettled b).monitor = s.monitor := rfl
@[simp] theorem State.withSettled_roll (b : Bool) : (s.withSettled b).roll = s.roll := rfl
@[simp] theorem State.withSettled_sup (b : Bool) : (s.withSettled b).sup = s.sup := rfl
@[simp] theorem State.withSettled_free (b : Bool) : (s.withSettled b).free = s.free := rfl
@[simp] theorem State.withSettled_pending (b : Bool) : (s.withSettled b).pending = s.pending := rfl

@[simp] theorem State.onDose_pins (f : Dose → Dose) : (s.onDose f).pins = s.pins := rfl
@[simp] theorem State.onDose_ports (f : Dose → Dose) : (s.onDose f).ports = s.ports := rfl
@[simp] theorem State.onDose_router (f : Dose → Dose) : (s.onDose f).router = s.router := rfl
@[simp] theorem State.onDose_store (f : Dose → Dose) : (s.onDose f).store = s.store := rfl
@[simp] theorem State.onDose_queue (f : Dose → Dose) : (s.onDose f).queue = s.queue := rfl
@[simp] theorem State.onDose_former (f : Dose → Dose) : (s.onDose f).former = s.former := rfl
@[simp] theorem State.onDose_tracker (f : Dose → Dose) : (s.onDose f).tracker = s.tracker := rfl
@[simp] theorem State.onDose_zones (f : Dose → Dose) : (s.onDose f).zones = s.zones := rfl
@[simp] theorem State.onDose_settledReported (f : Dose → Dose) : (s.onDose f).settledReported = s.settledReported := rfl
@[simp] theorem State.onDose_dose (f : Dose → Dose) : (s.onDose f).dose = f s.dose := rfl
@[simp] theorem State.onDose_monitor (f : Dose → Dose) : (s.onDose f).monitor = s.monitor := rfl
@[simp] theorem State.onDose_roll (f : Dose → Dose) : (s.onDose f).roll = s.roll := rfl
@[simp] theorem State.onDose_sup (f : Dose → Dose) : (s.onDose f).sup = s.sup := rfl
@[simp] theorem State.onDose_free (f : Dose → Dose) : (s.onDose f).free = s.free := rfl
@[simp] theorem State.onDose_pending (f : Dose → Dose) : (s.onDose f).pending = s.pending := rfl

@[simp] theorem State.onMonitor_pins (f : Monitor → Monitor) : (s.onMonitor f).pins = s.pins := rfl
@[simp] theorem State.onMonitor_ports (f : Monitor → Monitor) : (s.onMonitor f).ports = s.ports := rfl
@[simp] theorem State.onMonitor_router (f : Monitor → Monitor) : (s.onMonitor f).router = s.router := rfl
@[simp] theorem State.onMonitor_store (f : Monitor → Monitor) : (s.onMonitor f).store = s.store := rfl
@[simp] theorem State.onMonitor_queue (f : Monitor → Monitor) : (s.onMonitor f).queue = s.queue := rfl
@[simp] theorem State.onMonitor_former (f : Monitor → Monitor) : (s.onMonitor f).former = s.former := rfl
@[simp] theorem State.onMonitor_tracker (f : Monitor → Monitor) : (s.onMonitor f).tracker = s.tracker := rfl
@[simp] theorem State.onMonitor_zones (f : Monitor → Monitor) : (s.onMonitor f).zones = s.zones := rfl
@[simp] theorem State.onMonitor_settledReported (f : Monitor → Monitor) :
    (s.onMonitor f).settledReported = s.settledReported := rfl
@[simp] theorem State.onMonitor_dose (f : Monitor → Monitor) : (s.onMonitor f).dose = s.dose := rfl
@[simp] theorem State.onMonitor_monitor (f : Monitor → Monitor) : (s.onMonitor f).monitor = f s.monitor := rfl
@[simp] theorem State.onMonitor_roll (f : Monitor → Monitor) : (s.onMonitor f).roll = s.roll := rfl
@[simp] theorem State.onMonitor_sup (f : Monitor → Monitor) : (s.onMonitor f).sup = s.sup := rfl
@[simp] theorem State.onMonitor_free (f : Monitor → Monitor) : (s.onMonitor f).free = s.free := rfl
@[simp] theorem State.onMonitor_pending (f : Monitor → Monitor) : (s.onMonitor f).pending = s.pending := rfl

@[simp] theorem State.onZoneMonitor_pins (z : Fin 4) (f : ZoneMonitor → ZoneMonitor) :
    (s.onZoneMonitor z f).pins = s.pins := rfl
@[simp] theorem State.onZoneMonitor_ports (z : Fin 4) (f : ZoneMonitor → ZoneMonitor) :
    (s.onZoneMonitor z f).ports = s.ports := rfl
@[simp] theorem State.onZoneMonitor_router (z : Fin 4) (f : ZoneMonitor → ZoneMonitor) :
    (s.onZoneMonitor z f).router = s.router := rfl
@[simp] theorem State.onZoneMonitor_store (z : Fin 4) (f : ZoneMonitor → ZoneMonitor) :
    (s.onZoneMonitor z f).store = s.store := rfl
@[simp] theorem State.onZoneMonitor_queue (z : Fin 4) (f : ZoneMonitor → ZoneMonitor) :
    (s.onZoneMonitor z f).queue = s.queue := rfl
@[simp] theorem State.onZoneMonitor_former (z : Fin 4) (f : ZoneMonitor → ZoneMonitor) :
    (s.onZoneMonitor z f).former = s.former := rfl
@[simp] theorem State.onZoneMonitor_tracker (z : Fin 4) (f : ZoneMonitor → ZoneMonitor) :
    (s.onZoneMonitor z f).tracker = s.tracker := rfl
@[simp] theorem State.onZoneMonitor_zones (z : Fin 4) (f : ZoneMonitor → ZoneMonitor) :
    (s.onZoneMonitor z f).zones = s.zones := rfl
@[simp] theorem State.onZoneMonitor_settledReported (z : Fin 4) (f : ZoneMonitor → ZoneMonitor) :
    (s.onZoneMonitor z f).settledReported = s.settledReported := rfl
@[simp] theorem State.onZoneMonitor_dose (z : Fin 4) (f : ZoneMonitor → ZoneMonitor) :
    (s.onZoneMonitor z f).dose = s.dose := rfl
@[simp] theorem State.onZoneMonitor_monitor (z : Fin 4) (f : ZoneMonitor → ZoneMonitor) :
    (s.onZoneMonitor z f).monitor = { s.monitor with zones := s.monitor.zones.set z (f (s.monitor.zones.get z)) } := rfl
@[simp] theorem State.onZoneMonitor_roll (z : Fin 4) (f : ZoneMonitor → ZoneMonitor) :
    (s.onZoneMonitor z f).roll = s.roll := rfl
@[simp] theorem State.onZoneMonitor_sup (z : Fin 4) (f : ZoneMonitor → ZoneMonitor) :
    (s.onZoneMonitor z f).sup = s.sup := rfl
@[simp] theorem State.onZoneMonitor_free (z : Fin 4) (f : ZoneMonitor → ZoneMonitor) :
    (s.onZoneMonitor z f).free = s.free := rfl
@[simp] theorem State.onZoneMonitor_pending (z : Fin 4) (f : ZoneMonitor → ZoneMonitor) :
    (s.onZoneMonitor z f).pending = s.pending := rfl

@[simp] theorem State.onPlanner_pins (f : Planner → Planner) : (s.onPlanner f).pins = s.pins := rfl
@[simp] theorem State.onPlanner_ports (f : Planner → Planner) : (s.onPlanner f).ports = s.ports := rfl
@[simp] theorem State.onPlanner_router (f : Planner → Planner) : (s.onPlanner f).router = s.router := rfl
@[simp] theorem State.onPlanner_store (f : Planner → Planner) : (s.onPlanner f).store = s.store := rfl
@[simp] theorem State.onPlanner_queue (f : Planner → Planner) : (s.onPlanner f).queue = s.queue := rfl
@[simp] theorem State.onPlanner_former (f : Planner → Planner) : (s.onPlanner f).former = s.former := rfl
@[simp] theorem State.onPlanner_tracker (f : Planner → Planner) : (s.onPlanner f).tracker = s.tracker := rfl
@[simp] theorem State.onPlanner_zones (f : Planner → Planner) : (s.onPlanner f).zones = s.zones := rfl
@[simp] theorem State.onPlanner_settledReported (f : Planner → Planner) :
    (s.onPlanner f).settledReported = s.settledReported := rfl
@[simp] theorem State.onPlanner_dose (f : Planner → Planner) : (s.onPlanner f).dose = s.dose := rfl
@[simp] theorem State.onPlanner_monitor (f : Planner → Planner) : (s.onPlanner f).monitor = s.monitor := rfl
@[simp] theorem State.onPlanner_roll (f : Planner → Planner) :
    (s.onPlanner f).roll = { s.roll with planner := f s.roll.planner } := rfl
@[simp] theorem State.onPlanner_sup (f : Planner → Planner) : (s.onPlanner f).sup = s.sup := rfl
@[simp] theorem State.onPlanner_free (f : Planner → Planner) : (s.onPlanner f).free = s.free := rfl
@[simp] theorem State.onPlanner_pending (f : Planner → Planner) : (s.onPlanner f).pending = s.pending := rfl

@[simp] theorem State.onCut_pins (f : Cut → Cut) : (s.onCut f).pins = s.pins := rfl
@[simp] theorem State.onCut_ports (f : Cut → Cut) : (s.onCut f).ports = s.ports := rfl
@[simp] theorem State.onCut_router (f : Cut → Cut) : (s.onCut f).router = s.router := rfl
@[simp] theorem State.onCut_store (f : Cut → Cut) : (s.onCut f).store = s.store := rfl
@[simp] theorem State.onCut_queue (f : Cut → Cut) : (s.onCut f).queue = s.queue := rfl
@[simp] theorem State.onCut_former (f : Cut → Cut) : (s.onCut f).former = s.former := rfl
@[simp] theorem State.onCut_tracker (f : Cut → Cut) : (s.onCut f).tracker = s.tracker := rfl
@[simp] theorem State.onCut_zones (f : Cut → Cut) : (s.onCut f).zones = s.zones := rfl
@[simp] theorem State.onCut_settledReported (f : Cut → Cut) : (s.onCut f).settledReported = s.settledReported := rfl
@[simp] theorem State.onCut_dose (f : Cut → Cut) : (s.onCut f).dose = s.dose := rfl
@[simp] theorem State.onCut_monitor (f : Cut → Cut) : (s.onCut f).monitor = s.monitor := rfl
@[simp] theorem State.onCut_roll (f : Cut → Cut) : (s.onCut f).roll = { s.roll with cut := f s.roll.cut } := rfl
@[simp] theorem State.onCut_sup (f : Cut → Cut) : (s.onCut f).sup = s.sup := rfl
@[simp] theorem State.onCut_free (f : Cut → Cut) : (s.onCut f).free = s.free := rfl
@[simp] theorem State.onCut_pending (f : Cut → Cut) : (s.onCut f).pending = s.pending := rfl

@[simp] theorem State.onGeo_pins (f : RollGeometry → RollGeometry) : (s.onGeo f).pins = s.pins := rfl
@[simp] theorem State.onGeo_ports (f : RollGeometry → RollGeometry) : (s.onGeo f).ports = s.ports := rfl
@[simp] theorem State.onGeo_router (f : RollGeometry → RollGeometry) : (s.onGeo f).router = s.router := rfl
@[simp] theorem State.onGeo_store (f : RollGeometry → RollGeometry) : (s.onGeo f).store = s.store := rfl
@[simp] theorem State.onGeo_queue (f : RollGeometry → RollGeometry) : (s.onGeo f).queue = s.queue := rfl
@[simp] theorem State.onGeo_former (f : RollGeometry → RollGeometry) : (s.onGeo f).former = s.former := rfl
@[simp] theorem State.onGeo_tracker (f : RollGeometry → RollGeometry) : (s.onGeo f).tracker = s.tracker := rfl
@[simp] theorem State.onGeo_zones (f : RollGeometry → RollGeometry) : (s.onGeo f).zones = s.zones := rfl
@[simp] theorem State.onGeo_settledReported (f : RollGeometry → RollGeometry) :
    (s.onGeo f).settledReported = s.settledReported := rfl
@[simp] theorem State.onGeo_dose (f : RollGeometry → RollGeometry) : (s.onGeo f).dose = s.dose := rfl
@[simp] theorem State.onGeo_monitor (f : RollGeometry → RollGeometry) : (s.onGeo f).monitor = s.monitor := rfl
@[simp] theorem State.onGeo_roll (f : RollGeometry → RollGeometry) :
    (s.onGeo f).roll = { s.roll with geo := f s.roll.geo } := rfl
@[simp] theorem State.onGeo_sup (f : RollGeometry → RollGeometry) : (s.onGeo f).sup = s.sup := rfl
@[simp] theorem State.onGeo_free (f : RollGeometry → RollGeometry) : (s.onGeo f).free = s.free := rfl
@[simp] theorem State.onGeo_pending (f : RollGeometry → RollGeometry) : (s.onGeo f).pending = s.pending := rfl

@[simp] theorem State.onSup_pins (f : Supervisor → Supervisor) : (s.onSup f).pins = s.pins := rfl
@[simp] theorem State.onSup_ports (f : Supervisor → Supervisor) : (s.onSup f).ports = s.ports := rfl
@[simp] theorem State.onSup_router (f : Supervisor → Supervisor) : (s.onSup f).router = s.router := rfl
@[simp] theorem State.onSup_store (f : Supervisor → Supervisor) : (s.onSup f).store = s.store := rfl
@[simp] theorem State.onSup_queue (f : Supervisor → Supervisor) : (s.onSup f).queue = s.queue := rfl
@[simp] theorem State.onSup_former (f : Supervisor → Supervisor) : (s.onSup f).former = s.former := rfl
@[simp] theorem State.onSup_tracker (f : Supervisor → Supervisor) : (s.onSup f).tracker = s.tracker := rfl
@[simp] theorem State.onSup_zones (f : Supervisor → Supervisor) : (s.onSup f).zones = s.zones := rfl
@[simp] theorem State.onSup_settledReported (f : Supervisor → Supervisor) :
    (s.onSup f).settledReported = s.settledReported := rfl
@[simp] theorem State.onSup_dose (f : Supervisor → Supervisor) : (s.onSup f).dose = s.dose := rfl
@[simp] theorem State.onSup_monitor (f : Supervisor → Supervisor) : (s.onSup f).monitor = s.monitor := rfl
@[simp] theorem State.onSup_roll (f : Supervisor → Supervisor) : (s.onSup f).roll = s.roll := rfl
@[simp] theorem State.onSup_sup (f : Supervisor → Supervisor) : (s.onSup f).sup = f s.sup := rfl
@[simp] theorem State.onSup_free (f : Supervisor → Supervisor) : (s.onSup f).free = s.free := rfl
@[simp] theorem State.onSup_pending (f : Supervisor → Supervisor) : (s.onSup f).pending = s.pending := rfl

@[simp] theorem State.nextFree_pins : (s.nextFree).pins = s.pins := rfl
@[simp] theorem State.nextFree_ports : (s.nextFree).ports = s.ports := rfl
@[simp] theorem State.nextFree_router : (s.nextFree).router = s.router := rfl
@[simp] theorem State.nextFree_store : (s.nextFree).store = s.store := rfl
@[simp] theorem State.nextFree_queue : (s.nextFree).queue = s.queue := rfl
@[simp] theorem State.nextFree_former : (s.nextFree).former = s.former := rfl
@[simp] theorem State.nextFree_tracker : (s.nextFree).tracker = s.tracker := rfl
@[simp] theorem State.nextFree_zones : (s.nextFree).zones = s.zones := rfl
@[simp] theorem State.nextFree_settledReported : (s.nextFree).settledReported = s.settledReported := rfl
@[simp] theorem State.nextFree_dose : (s.nextFree).dose = s.dose := rfl
@[simp] theorem State.nextFree_monitor : (s.nextFree).monitor = s.monitor := rfl
@[simp] theorem State.nextFree_roll : (s.nextFree).roll = s.roll := rfl
@[simp] theorem State.nextFree_sup : (s.nextFree).sup = s.sup := rfl
@[simp] theorem State.nextFree_free : (s.nextFree).free = s.free + 1 := rfl
@[simp] theorem State.nextFree_pending : (s.nextFree).pending = s.pending := rfl

@[simp] theorem State.withPending_pins (q : List Instr) : (s.withPending q).pins = s.pins := rfl
@[simp] theorem State.withPending_ports (q : List Instr) : (s.withPending q).ports = s.ports := rfl
@[simp] theorem State.withPending_router (q : List Instr) : (s.withPending q).router = s.router := rfl
@[simp] theorem State.withPending_store (q : List Instr) : (s.withPending q).store = s.store := rfl
@[simp] theorem State.withPending_queue (q : List Instr) : (s.withPending q).queue = s.queue := rfl
@[simp] theorem State.withPending_former (q : List Instr) : (s.withPending q).former = s.former := rfl
@[simp] theorem State.withPending_tracker (q : List Instr) : (s.withPending q).tracker = s.tracker := rfl
@[simp] theorem State.withPending_zones (q : List Instr) : (s.withPending q).zones = s.zones := rfl
@[simp] theorem State.withPending_settledReported (q : List Instr) :
    (s.withPending q).settledReported = s.settledReported := rfl
@[simp] theorem State.withPending_dose (q : List Instr) : (s.withPending q).dose = s.dose := rfl
@[simp] theorem State.withPending_monitor (q : List Instr) : (s.withPending q).monitor = s.monitor := rfl
@[simp] theorem State.withPending_roll (q : List Instr) : (s.withPending q).roll = s.roll := rfl
@[simp] theorem State.withPending_sup (q : List Instr) : (s.withPending q).sup = s.sup := rfl
@[simp] theorem State.withPending_free (q : List Instr) : (s.withPending q).free = s.free := rfl
@[simp] theorem State.withPending_pending (q : List Instr) : (s.withPending q).pending = q := rfl

end

/-! ### Fixed families -/

@[simp] theorem Three.get_set {α : Type} (t : Three α) (p q : Port) (x : α) :
    (t.set p x).get q = if q = p then x else t.get q := by cases p <;> cases q <;> rfl
@[simp] theorem Three.set_set {α : Type} (t : Three α) (p : Port) (x y : α) : (t.set p x).set p y = t.set p y := by
  cases p <;> rfl
@[simp] theorem Three.get_map {α β : Type} (f : α → β) (t : Three α) (p : Port) : (t.map f).get p = f (t.get p) := by
  cases p <;> rfl
theorem Three.ext_get {α : Type} {t u : Three α} (h : ∀ p, t.get p = u.get p) : t = u := by
  cases t; cases u; have h1 := h .line; have h2 := h .pattern; have h3 := h .roll
  simp only [Three.get] at h1 h2 h3; subst h1 h2 h3; rfl
@[simp] theorem Four.get_set_same {α : Type} (q : Four α) (i : Fin 4) (x : α) : (q.set i x).get i = x := by
  match i with | 0 | 1 | 2 | 3 => rfl
theorem Four.get_set_ne {α : Type} (q : Four α) {i j : Fin 4} (h : j ≠ i) (x : α) : (q.set i x).get j = q.get j := by
  match i, j with
  | 0, 0 | 1, 1 | 2, 2 | 3, 3 => exact absurd rfl h
  | 0, 1 | 0, 2 | 0, 3 | 1, 0 | 1, 2 | 1, 3 | 2, 0 | 2, 1 | 2, 3 | 3, 0 | 3, 1 | 3, 2 => rfl
theorem Four.get_set {α : Type} (q : Four α) (i j : Fin 4) (x : α) :
    (q.set i x).get j = if j = i then x else q.get j := by
  by_cases h : j = i
  · subst h; simp
  · simp [h, Four.get_set_ne q h x]
@[simp] theorem Four.set_set {α : Type} (q : Four α) (i : Fin 4) (x y : α) : (q.set i x).set i y = q.set i y := by
  match i with | 0 | 1 | 2 | 3 => rfl
@[simp] theorem Four.get_map {α β : Type} (f : α → β) (q : Four α) (i : Fin 4) : (q.map f).get i = f (q.get i) := by
  match i with | 0 | 1 | 2 | 3 => rfl

end Sys2Proof.Machine
end

