-- ==== Sys2Proof/Laws/Cascade.lean ====
section
/-! SUPPORT. What a cascade can do, said once: how one signal is taken, and the two induction principles by which a law
of the part is shown to survive every cascade. -/

namespace Sys2Proof.Machine

theorem cascade_nil (n : Nat) (s : State) : cascade n [] s = s := by cases n <;> rfl

theorem cascade_cons {n : Nat} (h : 0 < n) (g : Sig) (rest : List Sig) (s : State) :
    cascade n (g :: rest) s = cascade (n - 1) ((handle g s).2 ++ rest) (flagJoints (handle g s).1) := by
  cases n with
  | zero => exact absurd h (by decide)
  | succ n => rfl

theorem settle_quiet (s : State) : settle (s, []) = flagJoints s := cascade_nil _ _

/-- A relation between what is still to be told and the state, kept by each signal, holds at the end of the cascade. -/
theorem cascade_induct {P : List Sig → State → Prop} {Q : State → Prop} (hq : ∀ l s, P l s → Q s)
    (hstep : ∀ g rest s, P (g :: rest) s → P ((handle g s).2 ++ rest) (flagJoints (handle g s).1)) :
    ∀ n l s, P l s → Q (cascade n l s)
  | 0, l, s, h => hq l s h
  | n + 1, [], s, h => hq [] s h
  | n + 1, g :: rest, s, h => by
    rw [cascade_cons (Nat.succ_pos n)]
    exact cascade_induct hq hstep n _ _ (hstep g rest s h)

/-- The same from a command's own effect on. -/
theorem settle_induct {P : List Sig → State → Prop} {Q : State → Prop} (hq : ∀ l s, P l s → Q s)
    (hstep : ∀ g rest s, P (g :: rest) s → P ((handle g s).2 ++ rest) (flagJoints (handle g s).1)) (w : Work)
    (h : P w.2 (flagJoints w.1)) : Q (settle w) := cascade_induct hq hstep _ _ _ h

/-- What each block's handling and the joint flags keep, a cascade keeps. -/
theorem settle_keeps {P : State → Prop} (hflag : ∀ s, P s → P (flagJoints s))
    (hhandle : ∀ g s, P s → P (handle g s).1) (w : Work) (h : P w.1) : P (settle w) :=
  settle_induct (P := fun _ s => P s) (fun _ _ h => h) (fun g _ s h => hflag _ (hhandle g s h)) w (hflag _ h)

/-- The same when only signals of a kind `A` occur, which the handling of such signals raises again. -/
theorem settle_keeps_of {A : Sig → Prop} {P : State → Prop} (hflag : ∀ s, P s → P (flagJoints s))
    (hhandle : ∀ g s, A g → P s → P (handle g s).1 ∧ ∀ g' ∈ (handle g s).2, A g') (w : Work) (h : P w.1)
    (ha : ∀ g ∈ w.2, A g) : P (settle w) := by
  refine settle_induct (P := fun l s => P s ∧ ∀ g ∈ l, A g) (fun _ _ h => h.1) ?_ w ⟨hflag _ h, ha⟩
  intro g rest s hgs
  have hg := hhandle g s (hgs.2 g (by simp)) hgs.1
  refine ⟨hflag _ hg.1, ?_⟩
  intro g' hg'
  rcases List.mem_append.mp hg' with h1 | h1
  · exact hg.2 g' h1
  · exact hgs.2 g' (by simp [h1])

/-- What a cascade leaves as it was. -/
theorem settle_same {α : Type} (f : State → α) (hflag : ∀ s, f (flagJoints s) = f s)
    (hhandle : ∀ g s, f (handle g s).1 = f s) (w : Work) : f (settle w) = f w.1 :=
  settle_keeps (P := fun s => f s = f w.1) (fun s h => (hflag s).trans h) (fun g s h => (hhandle g s).trans h) w rfl

/-- Within `k` signals the cascade of `l` from `s` is done, at `t`. -/
def Settles (k : Nat) (l : List Sig) (s t : State) : Prop := ∀ n, k ≤ n → cascade n l s = t

theorem Settles.done (s : State) : Settles 0 [] s s := fun n _ => cascade_nil n s

/-- A signal is taken, then all that follows from it, then the rest. -/
theorem Settles.take {k : Nat} {g : Sig} {rest : List Sig} {s t : State} {w : Work} (hw : handle g s = w)
    (h : Settles k (w.2 ++ rest) (flagJoints w.1) t) : Settles (k + 1) (g :: rest) s t := by
  intro n hn
  rw [cascade_cons (by omega), hw]
  exact h _ (by omega)

/-- A signal that finds nothing to do. -/
theorem Settles.skip {k : Nat} {g : Sig} {rest : List Sig} {s t : State} (hw : handle g s = quiet s)
    (hf : flagJoints s = s) (h : Settles k rest s t) : Settles (k + 1) (g :: rest) s t := by
  refine Settles.take hw ?_
  rw [quiet, hf]
  exact h

/-- A command's own effect, then its cascade. -/
theorem Settles.settle {k : Nat} {w : Work} {t : State} (h : Settles k w.2 (flagJoints w.1) t) (hk : k ≤ cascadeFuel) :
    settle w = t := h _ hk

/-- The joint flags touch the panel table only (R89). -/
theorem flagJoints_eq (s : State) :
    ∃ f : PanelRec → PanelRec, (∀ r, (f r).number = r.number) ∧
      flagJoints s = s.onTracker fun t => { t with table := t.table.map f } := by
  have hid : s = s.onTracker fun t => { t with table := t.table.map fun r => r } := by
    simp [State.onTracker]
  unfold flagJoints
  split
  · unfold onFormingPanel
    split
    · exact ⟨fun r => r, fun _ => rfl, hid⟩
    · rename_i n _
      refine ⟨fun r => if r.number = n then flaggedBy s.tracker.joints r else r, ?_, rfl⟩
      intro r
      dsimp only
      split <;> rfl
  · exact ⟨fun r => r, fun _ => rfl, hid⟩

end Sys2Proof.Machine
end

