-- ==== Sys2Proof/Laws/Kept.lean ====
section
/-! SUPPORT. What no cascade changes: the parts of the state that only a command's own effect sets.  A statement about
such a part reads it in the state before the cascade. -/

namespace Sys2Proof.Machine

/-- A slot without its reference count. -/
def slotContents (sl : Slot) : Slot := { sl with refs := 0 }

/-- A zone without its target, blank count and settle count. -/
def zoneBody (z : Zone) : Zone := { z with target := 0, blank := 0, settle := 0 }

/-- A zone monitor without its blank count and its note of a target change. -/
def monitorBody (k : ZoneMonitor) : ZoneMonitor := { k with blank := 0, targetChanged := false }

/-- The parts no cascade changes. -/
structure Kept where
  pins : Pins
  ports : Three PortState
  load : Option (Fin 16)
  slots : List Slot
  nextId : Nat
  low : Nat
  formerSet : FormerSettings
  pIn : Pos
  pOut : Pos
  high : Pos
  bladeHome : Filter
  hoodUp : Filter
  hoodDown : Filter
  jointDetector : Filter
  inputs : InputSettings
  taken : BitVec 32
  zones : Four Zone
  recipes : Four Recipe
  tunnel : TunnelSettings
  cells : List (Option Cell)
  nextShift : Pos
  sampleTimer : Nat
  monitor : Monitor
  geo : RollGeometry
  cutState : CutState
  cutFired : Bool
  cutPulse : Option Nat
  vReq : Nat
  formerLimit : Option Nat
  vPlanRun : Nat
  vHeat : Nat
  motion : MotionSettings
  updateTimer : Nat
  free : Nat
  pending : List Instr

/-- The kept parts of a state. -/
def kept (s : State) : Kept :=
  { pins := s.pins, ports := s.ports, load := s.store.load, slots := s.store.slots.map slotContents,
    nextId := s.queue.nextId, low := s.queue.low, formerSet := s.former.set, pIn := s.tracker.pIn,
    pOut := s.tracker.pOut, high := s.tracker.high, bladeHome := s.tracker.bladeHome, hoodUp := s.tracker.hoodUp,
    hoodDown := s.tracker.hoodDown, jointDetector := s.tracker.jointDetector, inputs := s.tracker.set,
    taken := s.tracker.taken, zones := s.zones.map zoneBody, recipes := s.dose.recipes, tunnel := s.dose.tunnel,
    cells := s.dose.cells, nextShift := s.dose.nextShift, sampleTimer := s.dose.sampleTimer,
    monitor := { s.monitor with zones := s.monitor.zones.map monitorBody, breakTimer := none }, geo := s.roll.geo,
    cutState := s.roll.cut.state, cutFired := s.roll.cut.fired, cutPulse := s.roll.cut.pulse, vReq := s.sup.vReq,
    formerLimit := s.sup.formerLimit, vPlanRun := s.sup.vPlanRun, vHeat := s.sup.vHeat, motion := s.sup.set,
    updateTimer := s.sup.updateTimer, free := s.free, pending := s.pending }

/-! ### Changes of one block -/

@[simp] theorem kept_onRouter (f : Three RouterPort → Three RouterPort) (s : State) : kept (s.onRouter f) = kept s := rfl
@[simp] theorem kept_withSettled (b : Bool) (s : State) : kept (s.withSettled b) = kept s := rfl
@[simp] theorem kept_onPlanner (f : Planner → Planner) (s : State) : kept (s.onPlanner f) = kept s := rfl

theorem kept_onFormer {f : Former → Former} (h : ∀ x, (f x).set = x.set) (s : State) :
    kept (s.onFormer f) = kept s := by
  simp only [kept, State.onFormer, h]

theorem kept_onQueue {f : RunQueue → RunQueue} (h : ∀ x, (f x).nextId = x.nextId ∧ (f x).low = x.low) (s : State) :
    kept (s.onQueue f) = kept s := by
  simp only [kept, State.onQueue, h]

theorem kept_onSup {f : Supervisor → Supervisor}
    (h : ∀ x, (f x).vReq = x.vReq ∧ (f x).formerLimit = x.formerLimit ∧ (f x).vPlanRun = x.vPlanRun ∧
      (f x).vHeat = x.vHeat ∧ (f x).set = x.set ∧ (f x).updateTimer = x.updateTimer) (s : State) :
    kept (s.onSup f) = kept s := by
  simp only [kept, State.onSup, h]

theorem kept_onCut {f : Cut → Cut} (h : ∀ x, (f x).state = x.state ∧ (f x).fired = x.fired ∧ (f x).pulse = x.pulse)
    (s : State) : kept (s.onCut f) = kept s := by
  simp only [kept, State.onCut, h]

theorem kept_onDose {f : Dose → Dose}
    (h : ∀ x, (f x).recipes = x.recipes ∧ (f x).tunnel = x.tunnel ∧ (f x).cells = x.cells ∧
      (f x).nextShift = x.nextShift ∧ (f x).sampleTimer = x.sampleTimer) (s : State) :
    kept (s.onDose f) = kept s := by
  simp only [kept, State.onDose, h]

/-- What a change of the tracker's collections leaves of it. -/
def trackerBody (t : Tracker) : Tracker :=
  { t with joints := [], droppedCaptures := 0, droppedMarks := 0, map := [], table := [], nextPanel := 0, reports := [],
           begun := 0 }

theorem kept_onTracker {f : Tracker → Tracker} (h : ∀ x, trackerBody (f x) = trackerBody x) (s : State) :
    kept (s.onTracker f) = kept s := by
  have h' := h s.tracker
  simp only [trackerBody, Tracker.mk.injEq] at h'
  simp only [kept, State.onTracker, h']

theorem Four.map_set {α β : Type} (g : α → β) (q : Four α) (i : Fin 4) (x : α) :
    (q.set i x).map g = (q.map g).set i (g x) := by
  match i with | 0 | 1 | 2 | 3 => rfl

theorem Four.set_get {α : Type} (q : Four α) (i : Fin 4) : q.set i (q.get i) = q := by
  match i with | 0 | 1 | 2 | 3 => rfl

theorem kept_onZone {f : Zone → Zone} (h : ∀ x, zoneBody (f x) = zoneBody x) (z : Fin 4) (s : State) :
    kept (s.onZone z f) = kept s := by
  have h' : (s.zones.set z (f (s.zones.get z))).map zoneBody = s.zones.map zoneBody := by
    rw [Four.map_set, h, ← Four.get_map zoneBody, Four.set_get]
  simp only [kept, State.onZone, h']

theorem kept_onZoneMonitor {f : ZoneMonitor → ZoneMonitor} (h : ∀ x, monitorBody (f x) = monitorBody x) (z : Fin 4)
    (s : State) : kept (s.onZoneMonitor z f) = kept s := by
  have h' : (s.monitor.zones.set z (f (s.monitor.zones.get z))).map monitorBody = s.monitor.zones.map monitorBody := by
    rw [Four.map_set, h, ← Four.get_map monitorBody, Four.set_get]
  simp only [kept, State.onZoneMonitor, h']

theorem kept_onSlot {f : Slot → Slot} (h : ∀ x, slotContents (f x) = slotContents x) (i : Fin 16) (s : State) :
    kept (onSlot i f s) = kept s := by
  have h' : (s.store.slots.modify i.val f).map slotContents = s.store.slots.map slotContents := by
    apply List.ext_getElem?
    intro n
    simp only [List.getElem?_map, List.getElem?_modify]
    cases s.store.slots[n]? with
    | none => rfl
    | some x => by_cases hn : i.val = n <;> simp [hn, h]
  simp only [kept, onSlot, State.onStore, h']

@[simp] theorem kept_raise (k : EventKind) (d : List Byte) (s : State) : kept (raise k d s) = kept s := rfl

@[simp] theorem kept_flagJoints (s : State) : kept (flagJoints s) = kept s := by
  obtain ⟨f, _, hf⟩ := flagJoints_eq s
  rw [hf]
  exact kept_onTracker (fun _ => rfl) s

/-! ### Queue and web -/

@[simp] theorem kept_onPanel (n : BitVec 16) (f : PanelRec → PanelRec) (s : State) : kept (onPanel n f s) = kept s :=
  kept_onTracker (fun _ => rfl) s

@[simp] theorem kept_onFormingPanel (f : PanelRec → PanelRec) (s : State) : kept (onFormingPanel f s) = kept s := by
  unfold onFormingPanel; split <;> simp

@[simp] theorem kept_dropReference (i : Fin 16) (s : State) : kept (dropReference i s) = kept s :=
  kept_onSlot (f := fun sl => { sl with refs := sl.refs - 1 }) (fun _ => rfl) i s

@[simp] theorem kept_queuedFell (s : State) : kept (queuedFell s) = kept s := by
  unfold queuedFell; split <;> simp

@[simp] theorem kept_activate (s : State) : kept (activate s) = kept s := by
  unfold activate; split
  · rfl
  · rw [kept_queuedFell]; exact kept_onQueue (fun _ => ⟨rfl, rfl⟩) s

@[simp] theorem kept_retire (k : Nat) (s : State) : kept (retire k s) = kept s := by
  unfold retire; split
  · rfl
  · rw [kept_raise, kept_dropReference]; exact kept_onQueue (fun _ => ⟨rfl, rfl⟩) s

@[simp] theorem kept_onHead (f : Order → Order) (s : State) : kept (onHead f s) = kept s :=
  kept_onQueue (fun _ => ⟨rfl, rfl⟩) s

@[simp] theorem kept_countPanel (s : State) : kept (countPanel s) = kept s := by
  unfold countPanel; dsimp only; split
  · simp
  · split
    · simp
    · split <;> simp

@[simp] theorem kept_countAborted (s : State) : kept (countAborted s) = kept s := by
  unfold countAborted; split
  · rfl
  · split <;> simp

@[simp] theorem kept_nameFreeze (n : Option Nat) (s : State) : kept (nameFreeze n s) = kept s := by
  unfold nameFreeze; rw [kept_onPlanner]; exact kept_onQueue (fun _ => ⟨rfl, rfl⟩) s

@[simp] theorem kept_writeMark (k : MarkKind) (p : Option (BitVec 16)) (s : State) :
    kept (writeMark k p s) = kept s := kept_onTracker (fun _ => rfl) s

@[simp] theorem kept_chooseTarget (s : State) : kept (chooseTarget s) = kept s := by
  unfold chooseTarget; split
  · rfl
  · exact kept_onCut (fun _ => ⟨rfl, rfl, rfl⟩) s

@[simp] theorem kept_cutSeesEnd (s : State) : kept (cutSeesEnd s) = kept s := by
  unfold cutSeesEnd; split <;> simp

@[simp] theorem kept_cutSeesStart (s : State) : kept (cutSeesStart s) = kept s := by
  unfold cutSeesStart; split
  · rfl
  · split
    · split
      · rfl
      · dsimp only; split
        · exact kept_onCut (fun _ => ⟨rfl, rfl, rfl⟩) s
        · rfl
    · rfl

@[simp] theorem kept_beginPanel (o : Order) (s : State) : kept (beginPanel o s) = kept s :=
  kept_onTracker (fun _ => rfl) s

@[simp] theorem kept_closePanel (n : BitVec 16) (a : Bool) (s : State) : kept (closePanel n a s) = kept s := by
  simp [closePanel]

@[simp] theorem kept_queueReport (r : PanelRec) (s : State) : kept (queueReport r s) = kept s := by
  unfold queueReport; dsimp only; split
  · rw [kept_raise]; exact kept_onTracker (fun _ => rfl) s
  · exact kept_onTracker (fun _ => rfl) s

@[simp] theorem kept_awaitReport (n : BitVec 16) (s : State) : kept (awaitReport n s) = kept s := by
  simp [awaitReport]

@[simp] theorem kept_panelAtKnife (n : BitVec 16) (s : State) : kept (panelAtKnife n s).1 = kept s := by
  unfold panelAtKnife; split
  · rfl
  · split <;> simp [quiet]

@[simp] theorem kept_passKnife (s : State) : kept (passKnife s).1 = kept s := by
  unfold passKnife; split
  · rfl
  · split
    · dsimp only; split
      · rw [kept_panelAtKnife]; exact kept_onTracker (fun _ => rfl) s
      · exact kept_onTracker (fun _ => rfl) s
    · rfl

@[simp] theorem kept_markJoint (s : State) : kept (markJoint s) = kept s := by
  unfold markJoint; dsimp only; split
  · exact kept_onTracker (fun _ => rfl) s
  · simp

@[simp] theorem kept_markArrivals (g : RollGeometry) (p : Pos) (es : List Joint) (s : State) :
    kept (markArrivals g p es s) = kept s := by
  induction es generalizing s with
  | nil => rfl
  | cons e es ih => rw [markArrivals, ih]; split <;> simp

@[simp] theorem kept_arriveJoints (s : State) : kept (arriveJoints s) = kept s :=
  (kept_onTracker (fun _ => rfl) _).trans (kept_markArrivals _ _ _ s)

@[simp] theorem kept_passJoints (s : State) : kept (passJoints s).1 = kept s :=
  (kept_onTracker (fun _ => rfl) _).trans (kept_flagJoints s)

@[simp] theorem kept_addJoint (x : Pos) (u : Bool) (s : State) : kept (addJoint x u s) = kept s := by
  refine kept_onTracker (fun t => ?_) s
  split <;> rfl

/-! ### Zones, planner, line, former -/

@[simp] theorem kept_changeTarget (z : Fin 4) (t : Nat) (s : State) : kept (changeTarget z t s) = kept s :=
  (kept_onZoneMonitor (f := monitorNewTarget) (fun _ => rfl) z _).trans
    (kept_onZone (f := fun q => { q with target := t, blank := 5, settle := 0 }) (fun _ => rfl) z s)

@[simp] theorem kept_handTarget (t : Nat) (z : Fin 4) (s : State) : kept (handTarget t z s) = kept s := by
  unfold handTarget; split <;> simp

@[simp] theorem kept_retarget (s : State) : kept (retarget s) = kept s := by
  simp [retarget, zonesInOrder]

@[simp] theorem kept_reportSettled (f : Bool) (s : State) : kept (reportSettled f s).1 = kept s := by
  unfold reportSettled; dsimp only; split
  · rfl
  · dsimp only; split <;> simp

@[simp] theorem kept_drainTest (s : State) : kept (drainTest s).1 = kept s := by
  unfold drainTest; split
  · rfl
  · split
    · rw [kept_retarget]; exact kept_onDose (fun _ => ⟨rfl, rfl, rfl, rfl, rfl⟩) s
    · rfl

@[simp] theorem kept_testRollLow (s : State) : kept (testRollLow s) = kept s := by
  unfold testRollLow; split
  · rfl
  · split <;> simp

@[simp] theorem kept_announce (p : Pos) (k : Nat) (s : State) : kept (announce p k s) = kept s := by simp [announce]
@[simp] theorem kept_schedule (c : Candidate) (s : State) : kept (schedule c s) = kept s := by simp [schedule]
@[simp] theorem kept_unschedule (s : State) : kept (unschedule s) = kept s := by simp [unschedule]

theorem kept_spliceLimit (b : Bool) (s : State) : kept (s.onSup fun v => { v with spliceLimit := b }) = kept s :=
  kept_onSup (fun _ => ⟨rfl, rfl, rfl, rfl, rfl, rfl⟩) s

@[simp] theorem kept_forceSplice (s : State) : kept (forceSplice s) = kept s := by
  simp [forceSplice, kept_spliceLimit]

@[simp] theorem kept_leaveFired (s : State) : kept (leaveFired s) = kept s := by
  simp [leaveFired, kept_spliceLimit]

@[simp] theorem kept_search (b : Bool) (s : State) : kept (search b s).1 = kept s := by
  unfold search; dsimp only; split
  · simp
  · simp
  · split
    · rfl
    · split <;> simp [quiet]
  · split <;> simp [quiet]
  all_goals rfl

@[simp] theorem kept_withdrawSplice (c : Option FailCause) (s : State) : kept (withdrawSplice c s).1 = kept s := by
  unfold withdrawSplice; split
  · dsimp only; split <;> simp [announceFailure, kept_spliceLimit]
  · rfl

@[simp] theorem kept_deriveHood (s : State) : kept (deriveHood s) = kept s := by
  unfold deriveHood; dsimp only; split
  · rfl
  · exact kept_onSup (fun _ => ⟨rfl, rfl, rfl, rfl, rfl, rfl⟩) s

@[simp] theorem kept_commandHood (d : Bool) (s : State) : kept (commandHood d s) = kept s := by
  rw [commandHood, kept_deriveHood]; exact kept_onSup (fun _ => ⟨rfl, rfl, rfl, rfl, rfl, rfl⟩) s

@[simp] theorem kept_setLine (l : LineState) (s : State) : kept (setLine l s) = kept s := by
  unfold setLine; dsimp only
  rw [kept_retarget, kept_raise]; exact kept_onSup (fun _ => ⟨rfl, rfl, rfl, rfl, rfl, rfl⟩) s

@[simp] theorem kept_setCauses (c : HoldCauses) (s : State) : kept (setCauses c s) = kept s := by
  have h : kept (s.onSup fun v => { v with causes := c }) = kept s :=
    kept_onSup (fun _ => ⟨rfl, rfl, rfl, rfl, rfl, rfl⟩) s
  unfold setCauses; split
  · rfl
  · dsimp only; split
    · rw [kept_raise, h]
    · exact h

@[simp] theorem kept_withdrawCauses (s : State) : kept (withdrawCauses s) = kept s := by simp [withdrawCauses]

@[simp] theorem kept_leaveBoundaryHold (s : State) : kept (leaveBoundaryHold s) = kept s := by
  unfold leaveBoundaryHold; split
  · rw [kept_withdrawCauses]; exact kept_onFormer (fun _ => rfl) s
  · rfl

@[simp] theorem kept_enterLine (l : LineState) (s : State) : kept (enterLine l s).1 = kept s := by
  unfold enterLine
  cases l <;> dsimp only
  · rw [kept_leaveBoundaryHold, kept_commandHood, kept_setLine]
    exact kept_onSup (fun _ => ⟨rfl, rfl, rfl, rfl, rfl, rfl⟩) s
  · simp
  · simp
  · simp
  · split <;> simp only [kept_commandHood, kept_setLine] <;>
      exact kept_onSup (fun _ => ⟨rfl, rfl, rfl, rfl, rfl, rfl⟩) s
  · rw [kept_setLine]; exact kept_onSup (fun _ => ⟨rfl, rfl, rfl, rfl, rfl, rfl⟩) s
  · rfl

theorem kept_onBreakTimer {f : Monitor → Monitor}
    (h : ∀ m, { f m with breakTimer := none } = { m with breakTimer := none }) (s : State) :
    kept (s.onMonitor f) = kept s := by
  have h' := h s.monitor
  simp only [Monitor.mk.injEq] at h'
  simp only [kept, State.onMonitor, h']

@[simp] theorem kept_tripLine (c : TripCause) (s : State) : kept (tripLine c s).1 = kept s := by
  unfold tripLine; dsimp only; split
  · rfl
  · dsimp only
    simp only [kept_onBreakTimer, kept_commandHood, kept_setLine, kept_raise, implies_true]
    exact kept_onSup (fun _ => ⟨rfl, rfl, rfl, rfl, rfl, rfl⟩) s

theorem breakWatch_body (l : LineState) (v : Nat) (m : Monitor) :
    { breakWatch l v m with breakTimer := none } = { m with breakTimer := none } := by
  unfold breakWatch
  split
  · rfl
  · split <;> rfl

@[simp] theorem kept_speedSteps (s : State) : kept (speedSteps s) = kept s :=
  (kept_onBreakTimer (breakWatch_body _ _) _).trans (kept_onSup (fun _ => ⟨rfl, rfl, rfl, rfl, rfl, rfl⟩) s)

@[simp] theorem kept_causesChanged (s : State) : kept (causesChanged s).1 = kept s := by
  unfold causesChanged; split
  · simp
  · split
    · rw [kept_enterLine]; exact kept_onSup (fun _ => ⟨rfl, rfl, rfl, rfl, rfl, rfl⟩) s
    · rfl

@[simp] theorem kept_beginLength (l : Nat) (s : State) : kept (beginLength l s) = kept s :=
  kept_onFormer (fun _ => rfl) s

@[simp] theorem kept_enterTail (s : State) : kept (enterTail s) = kept s := by
  rw [enterTail, kept_beginLength]; exact kept_onFormer (fun _ => rfl) s

@[simp] theorem kept_enterFlat (i : Nat) (st : StepRec) (s : State) : kept (enterFlat i st s) = kept s := by
  rw [enterFlat, kept_beginLength]; exact kept_onFormer (fun _ => rfl) s

@[simp] theorem kept_enterStep (i : Nat) (s : State) : kept (enterStep i s) = kept s := by
  unfold enterStep; split
  · simp
  · split
    · exact kept_onFormer (fun _ => rfl) s
    · simp

@[simp] theorem kept_recordLate (s : State) : kept (recordLate s) = kept s := by
  unfold recordLate; split
  · simp only [kept_raise, kept_onFormer, kept_onFormingPanel, implies_true]
  · rfl

@[simp] theorem kept_enterFeed (st : StepRec) (s : State) : kept (enterFeed st s) = kept s := by
  unfold enterFeed; dsimp only; split
  · simp only [kept_onFormingPanel, kept_onFormer, kept_beginLength, implies_true]
  · simp only [kept_onFormer, kept_beginLength, implies_true]

@[simp] theorem kept_startStroke (s : State) : kept (startStroke s).1 = kept s := by
  unfold startStroke; split
  · rfl
  · dsimp only; rw [kept_enterFeed, kept_recordLate]; exact kept_onFormer (fun _ => rfl) s

@[simp] theorem kept_afterStroke (s : State) : kept (afterStroke s) = kept s := by
  unfold afterStroke; split
  · split
    · exact kept_onFormer (fun _ => rfl) s
    · split
      · simp
      · split
        · exact kept_onFormer (fun _ => rfl) s
        · simp
  · rfl

@[simp] theorem kept_endRetract (s : State) : kept (endRetract s).1 = kept s := by
  have h : kept (afterStroke (onFormingPanel (fun r => { r with formed := bump16 r.formed })
      (s.onFormer fun f => { f with timer := none }))) = kept s := by
    rw [kept_afterStroke, kept_onFormingPanel]; exact kept_onFormer (fun _ => rfl) s
  unfold endRetract; split
  · rfl
  · dsimp only; split
    · exact (kept_onFormer (fun _ => rfl) _).trans h
    · split
      · rw [kept_startStroke, h]
      · exact h

@[simp] theorem kept_holdFor (h : HoldReason) (s : State) : kept (holdFor h s) = kept s := by
  unfold holdFor; dsimp only; rw [kept_setCauses]; exact kept_onFormer (fun _ => rfl) s

@[simp] theorem kept_restIdle (s : State) : kept (restIdle s) = kept s := by
  unfold restIdle; rw [kept_withdrawCauses]; exact kept_onFormer (fun _ => rfl) s

@[simp] theorem kept_startBridge (i : Fin 4) (s : State) : kept (startBridge i s) = kept s := by
  unfold startBridge; dsimp only
  simp only [kept_withdrawCauses, kept_onDose, kept_onFormer, kept_writeMark, implies_true, and_self]

@[simp] theorem kept_startPanel (s : State) : kept (startPanel s) = kept s := by
  unfold startPanel; dsimp only; split
  · simp
  · simp only [kept_beginLength, kept_onFormer, implies_true]; simp

@[simp] theorem kept_boundaryTest (s : State) : kept (boundaryTest s).1 = kept s := by
  unfold boundaryTest; split
  · rfl
  · split
    · dsimp only; rw [kept_holdFor]; split <;> simp
    · split
      · split
        · simp
        · split <;> simp
      · split
        · simp
        · split <;> simp

@[simp] theorem kept_endPanel (s : State) : kept (endPanel s).1 = kept s := by
  unfold endPanel; split
  · rfl
  · dsimp only; simp only [kept_onFormer, implies_true]; simp

@[simp] theorem kept_keepReached (s : State) : kept (keepReached s) = kept s := by
  unfold keepReached; split
  · exact kept_onFormer (fun _ => rfl) s
  · rfl

@[simp] theorem kept_formerTest (s : State) : kept (formerTest s).1 = kept s := by
  have hl : ∀ s, kept (noteLate s) = kept s := by
    intro s; unfold noteLate; split
    · exact kept_onFormer (fun _ => rfl) s
    · rfl
  have hf : kept (endFollow s).1 = kept s := by
    unfold endFollow; split
    · simp
    · split
      · split
        · rw [kept_beginLength]; exact kept_onFormer (fun _ => rfl) s
        · simp
      · rfl
    · simp
    all_goals rfl
  unfold formerTest; split
  · split
    · exact hf
    · rfl
  · split
    · exact hf
    · rfl
  · split
    · exact hf
    · rfl
  · split <;> simp [quiet]
  · dsimp only [quiet]; split
    · simp only [endFeed, kept_onFormer, implies_true]; exact hl s
    · exact hl s
  · exact hl s
  · exact hl s
  · split
    · simp
    · exact hl s
  · exact kept_keepReached s
  all_goals rfl

@[simp] theorem kept_resumeWork (s : State) : kept (resumeWork s).1 = kept s := by
  have hu : kept (s.onFormer fun f =>
      { f with state := f.resume.getD .idle, resume := none, hold := .none, reachedInStop := false }) = kept s :=
    kept_onFormer (fun _ => rfl) s
  unfold resumeWork; dsimp only; split
  · rw [kept_startStroke, hu]
  · exact hu

@[simp] theorem kept_formerAbort (s : State) : kept (formerAbort s).1 = kept s := by
  have hp : kept (abortPanel s) = kept s := by unfold abortPanel; split <;> simp
  have hb : ∀ s, kept (abortBridge s) = kept s := by
    intro s; unfold abortBridge; split
    · simp only [kept_onDose, kept_writeMark, implies_true, and_self]
    · rfl
  unfold formerAbort; dsimp only [quiet]
  simp only [kept_withdrawCauses, kept_onFormer, hb, hp, implies_true]

/-- No signal's handling changes a kept part. -/
theorem kept_handle (g : Sig) (s : State) : kept (handle g s).1 = kept s := by
  cases g <;> simp only [handle, quiet, kept_tripLine, kept_reportSettled, kept_drainTest,
    kept_formerTest, kept_boundaryTest, kept_formerAbort, kept_arriveJoints, kept_passJoints, kept_passKnife,
    kept_search, kept_withdrawSplice, kept_causesChanged]
  case hoodSeen => unfold hoodSeen; split <;> simp [quiet]
  case warm => unfold warmTest; split <;> simp [quiet]
  case stopCheck => unfold stopCheck; split <;> simp [quiet]
  case reportEnd => unfold reportEnd; split <;> simp [quiet]
  case space => unfold spaceTest; split <;> rfl
  case formerRun =>
    unfold formerRun; split
    · rfl
    · split
      · rfl
      · split
        · exact kept_resumeWork s
        · rfl
      all_goals rfl
  case formerPause =>
    unfold formerPause; split
    case h_6 => exact kept_leaveBoundaryHold s
    all_goals rfl
  case bridge =>
    unfold bridgeTest; split
    · dsimp only; simp only [kept_onFormer, implies_true]; simp
    · rfl
  case track x => simp [trackJoint]
  case jointPassed x => unfold jointPassed; split <;> rfl
  case deadline =>
    unfold deadlineTest; split
    · split <;> simp [quiet]
    · rfl
  case approach =>
    unfold approachTest; split
    · split
      · simp [quiet, kept_spliceLimit]
      · rfl
    · rfl
  case fire =>
    unfold fireTest; split
    · split <;> simp [quiet]
    · rfl
  case window =>
    unfold windowTest; split
    · split <;> simp [quiet, announceFailure]
    · rfl
  case dueExpiry =>
    unfold dueExpiryTest; split
    · rfl
    · split <;> rfl
  case rollOut =>
    unfold rollOutTest; dsimp only; split
    · simp [quiet]
    · split <;> simp [quiet]

/-- A cascade changes no kept part. -/
theorem kept_settle (w : Work) : kept (settle w) = kept w.1 := settle_same kept kept_flagJoints kept_handle w

/-! ### The parts one by one -/

section
variable (w : Work)

@[simp] theorem settle_pins : (settle w).pins = w.1.pins := congrArg Kept.pins (kept_settle w)
@[simp] theorem settle_ports : (settle w).ports = w.1.ports := congrArg Kept.ports (kept_settle w)
@[simp] theorem settle_load : (settle w).store.load = w.1.store.load := congrArg Kept.load (kept_settle w)
@[simp] theorem settle_slots :
    (settle w).store.slots.map slotContents = w.1.store.slots.map slotContents := congrArg Kept.slots (kept_settle w)
@[simp] theorem settle_nextId : (settle w).queue.nextId = w.1.queue.nextId := congrArg Kept.nextId (kept_settle w)
@[simp] theorem settle_low : (settle w).queue.low = w.1.queue.low := congrArg Kept.low (kept_settle w)
@[simp] theorem settle_formerSet : (settle w).former.set = w.1.former.set := congrArg Kept.formerSet (kept_settle w)
@[simp] theorem settle_pIn : (settle w).tracker.pIn = w.1.tracker.pIn := congrArg Kept.pIn (kept_settle w)
@[simp] theorem settle_pOut : (settle w).tracker.pOut = w.1.tracker.pOut := congrArg Kept.pOut (kept_settle w)
@[simp] theorem settle_high : (settle w).tracker.high = w.1.tracker.high := congrArg Kept.high (kept_settle w)
@[simp] theorem settle_bladeHome : (settle w).tracker.bladeHome = w.1.tracker.bladeHome :=
  congrArg Kept.bladeHome (kept_settle w)
@[simp] theorem settle_hoodUp : (settle w).tracker.hoodUp = w.1.tracker.hoodUp := congrArg Kept.hoodUp (kept_settle w)
@[simp] theorem settle_hoodDown : (settle w).tracker.hoodDown = w.1.tracker.hoodDown :=
  congrArg Kept.hoodDown (kept_settle w)
@[simp] theorem settle_jointDetector : (settle w).tracker.jointDetector = w.1.tracker.jointDetector :=
  congrArg Kept.jointDetector (kept_settle w)
@[simp] theorem settle_inputs : (settle w).tracker.set = w.1.tracker.set := congrArg Kept.inputs (kept_settle w)
@[simp] theorem settle_taken : (settle w).tracker.taken = w.1.tracker.taken := congrArg Kept.taken (kept_settle w)
@[simp] theorem settle_zoneBody (z : Fin 4) :
    zoneBody ((settle w).zones.get z) = zoneBody (w.1.zones.get z) := by
  have h := congrArg (fun k => k.zones.get z) (kept_settle w)
  simpa [kept] using h
@[simp] theorem settle_recipes : (settle w).dose.recipes = w.1.dose.recipes := congrArg Kept.recipes (kept_settle w)
@[simp] theorem settle_tunnel : (settle w).dose.tunnel = w.1.dose.tunnel := congrArg Kept.tunnel (kept_settle w)
@[simp] theorem settle_cells : (settle w).dose.cells = w.1.dose.cells := congrArg Kept.cells (kept_settle w)
@[simp] theorem settle_nextShift : (settle w).dose.nextShift = w.1.dose.nextShift :=
  congrArg Kept.nextShift (kept_settle w)
@[simp] theorem settle_sampleTimer : (settle w).dose.sampleTimer = w.1.dose.sampleTimer :=
  congrArg Kept.sampleTimer (kept_settle w)
@[simp] theorem settle_monitorBody (z : Fin 4) :
    monitorBody ((settle w).monitor.zones.get z) = monitorBody (w.1.monitor.zones.get z) := by
  have h := congrArg (fun k => k.monitor.zones.get z) (kept_settle w)
  simpa [kept] using h
@[simp] theorem settle_estop : (settle w).monitor.estop = w.1.monitor.estop :=
  congrArg (fun k => k.monitor.estop) (kept_settle w)
@[simp] theorem settle_test : (settle w).monitor.test = w.1.monitor.test :=
  congrArg (fun k => k.monitor.test) (kept_settle w)
@[simp] theorem settle_testPeriods : (settle w).monitor.testPeriods = w.1.monitor.testPeriods :=
  congrArg (fun k => k.monitor.testPeriods) (kept_settle w)
@[simp] theorem settle_testLatest : (settle w).monitor.testLatest = w.1.monitor.testLatest :=
  congrArg (fun k => k.monitor.testLatest) (kept_settle w)
@[simp] theorem settle_geo : (settle w).roll.geo = w.1.roll.geo := congrArg Kept.geo (kept_settle w)
@[simp] theorem settle_cutState : (settle w).roll.cut.state = w.1.roll.cut.state := congrArg Kept.cutState (kept_settle w)
@[simp] theorem settle_cutFired : (settle w).roll.cut.fired = w.1.roll.cut.fired := congrArg Kept.cutFired (kept_settle w)
@[simp] theorem settle_cutPulse : (settle w).roll.cut.pulse = w.1.roll.cut.pulse := congrArg Kept.cutPulse (kept_settle w)
@[simp] theorem settle_vReq : (settle w).sup.vReq = w.1.sup.vReq := congrArg Kept.vReq (kept_settle w)
@[simp] theorem settle_formerLimit : (settle w).sup.formerLimit = w.1.sup.formerLimit :=
  congrArg Kept.formerLimit (kept_settle w)
@[simp] theorem settle_vPlanRun : (settle w).sup.vPlanRun = w.1.sup.vPlanRun := congrArg Kept.vPlanRun (kept_settle w)
@[simp] theorem settle_vHeat : (settle w).sup.vHeat = w.1.sup.vHeat := congrArg Kept.vHeat (kept_settle w)
@[simp] theorem settle_motion : (settle w).sup.set = w.1.sup.set := congrArg Kept.motion (kept_settle w)
@[simp] theorem settle_updateTimer : (settle w).sup.updateTimer = w.1.sup.updateTimer :=
  congrArg Kept.updateTimer (kept_settle w)
@[simp] theorem settle_free : (settle w).free = w.1.free := congrArg Kept.free (kept_settle w)
@[simp] theorem settle_pending : (settle w).pending = w.1.pending := congrArg Kept.pending (kept_settle w)

end

end Sys2Proof.Machine
end

