-- ==== Sys2Proof/Laws/Former.lean ====
section
/-! SUPPORT. The former's lengths, strokes and speed limit as the statements name them are the model's; what starting a
stroke and entering a step do, said once; and the heat limit (R59 to R73, R135). -/

namespace Sys2Proof.Machine

open Sys2Proof.Safety

/-! ### Lengths -/

theorem headPattern_eq (s : State) : headPattern s = patternAhead s := by
  unfold headPattern headOrder patternAhead
  cases s.queue.orders <;> rfl

theorem isKnife_iff (st : StepRec) : isKnife st = true ↔ st.kind ≤ 1 := by simp [isKnife]

theorem isPleated_iff (st : StepRec) : isPleated st = true ↔ st.kind ≠ 3 := by simp [isPleated]

theorem gradedSum_eq (st : StepRec) (r : Nat) : gradedSum st r = pleatSum st r := rfl

theorem strokeDepth_eq (st : StepRec) (r : Nat) : strokeDepth st r = pleatDepth st r := by
  unfold strokeDepth pleatDepth clampDepth
  simp only [gradedSum_eq, isKnife_iff]
  split
  · split
    · omega
    · split <;> omega
  · rfl

theorem isClamped_eq (st : StepRec) (r : Nat) : isClamped st r = pleatClamped st r := by
  unfold isClamped pleatClamped
  by_cases h1 : st.kind ≤ 1 <;> by_cases h2 : pleatSum st r < 0 <;> by_cases h3 : 300 < pleatSum st r <;>
    simp [gradedSum_eq, isKnife, h1, h2, h3]

theorem flatLength_eq (st : StepRec) (d : Nat) : flatLength st d = pleatLength st d := by
  unfold flatLength pleatLength; simp only [isKnife_iff]

theorem strokeLength_eq (st : StepRec) (r : Nat) : strokeLength st r = pleatLength st (pleatDepth st r) := by
  rw [strokeLength, flatLength_eq, strokeDepth_eq]

theorem issuedCount_eq (f : Former) (l : Nat) : issuedCount f.set f.cIn l = countOf f l := rfl
theorem carryAfter_eq (f : Former) (l : Nat) : carryAfter f.set f.cIn l = carryOf f l := rfl

theorem ceilDiv_eq (a b : Nat) : ceilDiv a b = (a + b - 1) / b := by
  unfold ceilDiv
  rcases Nat.eq_zero_or_pos b with h | h
  · simp [h]
  · congr 1; omega

/-! ### The limit (R72, R73) -/

theorem stepLimit_eq (c : FormerSettings) (st : StepRec) : stepLimit c st = stepSpeed c st := by
  unfold stepLimit stepSpeed deepest
  simp only [isKnife_iff, strokeDepth_eq, flatLength_eq, ceilDiv_eq]

theorem passedLimit_eq (s : State) : passedLimit s = formerSpeed s := by
  have hp : inPleatedStep s.former = decide (s.former.state ∈ [FormerState.wait, .feed, .tuck, .press, .retract] ∨
      s.former.state = .held ∧ s.former.resume = some .wait) := by
    unfold inPleatedStep; split <;> simp_all
  unfold passedLimit formerSpeed
  rw [headPattern_eq, hp]
  dsimp only
  cases decide (s.former.state ∈ [FormerState.wait, .feed, .tuck, .press, .retract] ∨
      s.former.state = .held ∧ s.former.resume = some .wait) with
  | false => rfl
  | true =>
    cases s.former.step with
    | none => rfl
    | some i =>
      simp only [if_true, stepLimit_eq]
      cases (patternAhead s).steps[i]? with
      | none => rfl
      | some a =>
        cases (patternAhead s).steps[i + 1]? with
        | none => rfl
        | some b =>
          simp only [isPleated_iff]
          by_cases h : b.kind = 3 <;> simp [h]

/-! ### The heat limit (R135) -/

theorem foldl_min_le (f : Fin 4 → Nat) (zs : List (Fin 4)) (a : Nat) :
    zs.foldl (fun a y => min a (f y)) a ≤ a ∧ (∀ z ∈ zs, zs.foldl (fun a y => min a (f y)) a ≤ f z) ∧
      (zs.foldl (fun a y => min a (f y)) a = a ∨ ∃ z ∈ zs, zs.foldl (fun a y => min a (f y)) a = f z) := by
  induction zs generalizing a with
  | nil => simp
  | cons y ys ih =>
    obtain ⟨h1, h2, h3⟩ := ih (min a (f y))
    rw [List.foldl_cons]
    refine ⟨h1.trans (Nat.min_le_left _ _), ?_, ?_⟩
    · intro z hz
      rcases List.mem_cons.mp hz with h | h
      · subst h; exact h1.trans (Nat.min_le_right _ _)
      · exact h2 z h
    · rcases h3 with h | ⟨z, hz, h⟩
      · rcases Nat.le_total a (f y) with hle | hle
        · left; rw [h, Nat.min_eq_left hle]
        · right; exact ⟨y, by simp, by rw [h, Nat.min_eq_right hle]⟩
      · right; exact ⟨z, by simp [hz], h⟩

theorem mem_zonesInOrder (z : Fin 4) : z ∈ zonesInOrder := by
  match z with | 0 | 1 | 2 | 3 => simp [zonesInOrder]

/-- v_heat is the least of the used zones' limits. -/
theorem heatLimit_least (s : State) : IsHeatLimit s (heatLimit s) := by
  unfold IsHeatLimit heatLimit tunnelEntry
  cases s.dose.tunnelRecipe with
  | none => rfl
  | some i =>
    simp only [Option.map_some]
    have hm : ∀ z, z ∈ zonesInOrder.filter (usedZone (s.dose.recipes.get i)) ↔ (s.dose.recipes.get i).inc.get z ≠ 0 := by
      intro z; simp [usedZone, mem_zonesInOrder]
    cases hf : zonesInOrder.filter (usedZone (s.dose.recipes.get i)) with
    | nil =>
      rw [hf] at hm
      refine ⟨fun _ => rfl, fun ⟨z, hz⟩ => ?_⟩
      exact absurd ((hm z).mpr hz) (by simp)
    | cons z zs =>
      rw [hf] at hm
      have hz : (s.dose.recipes.get i).inc.get z ≠ 0 := (hm z).mp (by simp)
      refine ⟨fun h => absurd (h z) hz, fun _ => ?_⟩
      obtain ⟨h1, h2, h3⟩ := foldl_min_le (fun y => zoneLimit (s.dose.recipes.get i) y (s.zones.get y)) zs
        (zoneLimit (s.dose.recipes.get i) z (s.zones.get z))
      dsimp only at h1 h2 h3 ⊢
      refine ⟨Nat.min_le_left _ _, ?_, ?_⟩
      · intro y hy
        refine (Nat.min_le_right _ _).trans ?_
        rcases List.mem_cons.mp ((hm y).mpr hy) with h | h
        · subst h; exact h1
        · exact h2 y h
      · rcases Nat.le_total 65535 (zs.foldl (fun a y => min a (zoneLimit (s.dose.recipes.get i) y (s.zones.get y)))
          (zoneLimit (s.dose.recipes.get i) z (s.zones.get z))) with h | h
        · exact Or.inl (Nat.min_eq_left h)
        · rw [Nat.min_eq_right h]
          right
          rcases h3 with h3 | ⟨y, hy, h3⟩
          · exact ⟨z, hz, h3⟩
          · exact ⟨y, (hm y).mp (by simp [hy]), h3⟩

/-! ### The joint flags at rest (R89) -/

/-- Under the joint-flag law the flags stand already. -/
theorem flagJoints_self {s : State} (h : JointFlags s) : flagJoints s = s := by
  unfold flagJoints
  split
  · next hp =>
    rw [Bool.and_eq_true] at hp
    unfold onFormingPanel
    split
    · rfl
    · next n hn =>
      have hmap : s.tracker.table.map (fun r => if r.number = n then flaggedBy s.tracker.joints r else r) =
          s.tracker.table := by
        conv_rhs => rw [← List.map_id s.tracker.table]
        apply List.map_congr_left
        intro r hr
        split
        · next hrn =>
          obtain ⟨e, he, hent⟩ := List.any_eq_true.mp hp.2
          have h1 := (h hp.1 e he hent n hn r hr hrn).1
          have h2 : (r.jointUnconfirmed || s.tracker.joints.any fun e => e.entering && e.unconfirmed) =
              r.jointUnconfirmed := by
            cases hu : s.tracker.joints.any fun e => e.entering && e.unconfirmed with
            | false => simp
            | true =>
              obtain ⟨e', he', h'⟩ := List.any_eq_true.mp hu
              rw [Bool.and_eq_true] at h'
              simp [(h hp.1 e' he' h'.1 n hn r hr hrn).2 h'.2]
          have h3 : (s.tracker.joints.any fun e => e.entering) = true := hp.2
          cases r; simp_all [flaggedBy]; exact h2
        · rfl
      simp [onPanel, State.onTracker, hmap]
  · rfl

/-- Outside pleated steps, or with nothing ENTERING, the flags change nothing. -/
theorem flagJoints_idle {s : State}
    (h : inPleatedStep s.former = false ∨ ∀ e ∈ s.tracker.joints, e.entering = false) : flagJoints s = s := by
  apply flagJoints_self
  intro hp e he hent
  rcases h with h | h
  · rw [h] at hp; cases hp
  · rw [h e he] at hent; cases hent

/-! ### Strokes -/

theorem le2_eq_bytes2 (v : Nat) : le2 v = leBytes 2 v := rfl

/-- A stroke start, with FEED entered. -/
theorem startStroke_eq {s : State} {st : StepRec} (hs : currentStep s = some st) :
    startStroke s =
      ({ strokeStarted st s with former := { (strokeStarted st s).former with
          state := .feed, late := false,
          timer := some (feedTimeoutFor s.former.set (strokeCount s.former st s.former.rep)) } }, [.former]) := by
  unfold startStroke
  rw [hs]
  have hsym : ∀ (v : BitVec 16) (r : PanelRec), (some v = some r.number) ↔ r.number = v := by
    intro v r; simp [eq_comm]
  unfold recordLate enterFeed strokeStarted
  simp only [isClamped_eq, strokeDepth_eq, strokeLength_eq]
  cases hl : s.former.late <;> cases hc : pleatClamped st s.former.rep <;> cases hp : s.former.panel <;>
    simp [-Option.some.injEq, hsym, le2_eq_bytes2, panelBytes, advanceTrigger, hl, hc, hp, State.onFormer, beginLength,
      onFormingPanel, onPanel, State.onTracker, raise, State.onRouter, strokeCount, countOf, carryOf, issuedCount,
      carryAfter, ahead, dist, sideOf, advanceOf, bump16, Function.comp_def]
  rename_i v
  intro a _
  by_cases h : a.number = v <;> simp [h]

/-- A position is not ahead of itself plus a count that is neither 0 nor more than half way round. -/
theorem reached_add_dist (p : Pos) {n : Nat} (h : n < 2 ^ 31) : reached p (p + BitVec.ofNat 32 n) = decide (n = 0) := by
  have hn : (BitVec.ofNat 32 n).toNat = n := by simp [BitVec.toNat_ofNat]; omega
  have hs : (p - (p + BitVec.ofNat 32 n)).toNat = (2 ^ 32 - n) % 2 ^ 32 := by
    rw [BitVec.toNat_sub, BitVec.toNat_add, hn]; have := p.isLt; omega
  unfold reached
  rw [hs]
  by_cases h0 : n = 0
  · simp [h0]
  · have : (2 ^ 32 - n) % 2 ^ 32 = 2 ^ 32 - n := Nat.mod_eq_of_lt (by omega)
    rw [this]; simp [h0]; omega

/-- After a stroke's start FEED is looked at once more: a flat count of 0 ends it, a trigger already reached makes the next
stroke late. -/
theorem formerTest_startStroke {s : State} {st : StepRec} (hs : currentStep s = some st)
    (hr : strokeRuns s.former st s.former.rep) : formerTest (startStroke s).1 = quiet (strokeStarted st s) := by
  rw [startStroke_eq hs]
  have hreach := reached_add_dist s.tracker.pIn hr
  unfold formerTest noteLate triggerReached
  simp only [strokeStarted, hreach]
  by_cases h0 : strokeCount s.former st s.former.rep = 0 <;>
    rcases Bool.eq_false_or_eq_true
      ((s.former.trigger.map fun x => x + BitVec.ofNat 32 (advanceOf s.former st)).any (reached s.tracker.pOut)) with ht | ht <;>
    simp [h0, ht, quiet, endFeed, State.onFormer, feedTimeoutFor, ceilDiv_eq]

/-- At rest the former's own conditions change nothing. -/
theorem formerTest_rests {s : State} (h : FormerRests s) : formerTest s = quiet s := by
  have hm : ¬triggerMet s → triggerReached s = false := by
    intro hn
    rw [← Bool.not_eq_true]
    intro ht
    apply hn
    unfold triggerReached at ht
    cases hx : s.former.trigger with
    | none => rw [hx] at ht; simp at ht
    | some x => rw [hx] at ht; exact ⟨x, hx, by simpa using ht⟩
  unfold FormerRests at h
  unfold formerTest noteLate keepReached
  split at h
  case h_3 hst =>
    rw [hst]
    by_cases hk : s.former.resume = some .wait ∧ triggerReached s = true
    · have hr : s.former.reachedInStop = true := by
        by_contra hn
        exact h ⟨hk.1, by simpa using hn, Classical.byContradiction fun hno => by rw [hm hno] at hk; cases hk.2⟩
      dsimp only
      rw [if_pos hk, ← hr]
      rfl
    · dsimp only; rw [if_neg hk]
  all_goals simp_all [quiet]

/-- HELD before WAIT, a trigger that is reached is kept as reached (R74). -/
theorem formerTest_held {s : State} (hs : s.former.state = .held) (hr : s.former.resume = some .wait)
    (hm : triggerMet s) : formerTest s = quiet { s with former := { s.former with reachedInStop := true } } := by
  obtain ⟨x, hx, hp⟩ := hm
  have ht : triggerReached s = true := by unfold triggerReached; rw [hx]; exact hp
  unfold formerTest
  rw [hs]
  dsimp only
  rw [keepReached, if_pos ⟨hr, ht⟩]
  rfl

/-- The former with its work resumed (R75). -/
def resumed (s : State) : State :=
  { s with former := { s.former with
    state := s.former.resume.getD .idle, resume := none, hold := .none, reachedInStop := false } }

/-- Resuming WAIT starts the stroke of a trigger reached before or in the stop; else what was resumed is examined (R75). -/
theorem resumeWork_eq (s : State) :
    resumeWork s =
      if s.former.resume = some .wait ∧ (s.former.late = true ∨ s.former.reachedInStop = true) then
        startStroke (resumed s)
      else (resumed s, [.former, .bridge]) := by
  unfold resumeWork
  simp only [Bool.or_eq_true]
  rfl

/-- The joint-flag law passes to a state with the same joints whose records keep their numbers and flags. -/
theorem jointFlags_refine {s t : State} (h : JointFlags s) (hj : t.tracker.joints = s.tracker.joints)
    (hp : inPleatedStep t.former = true → inPleatedStep s.former = true ∧ t.former.panel = s.former.panel)
    (hr : ∀ r' ∈ t.tracker.table, ∃ r ∈ s.tracker.table,
      r'.number = r.number ∧ r'.joint = r.joint ∧ r'.jointUnconfirmed = r.jointUnconfirmed) : JointFlags t := by
  intro ht e he hent n hn r' hr' hnum
  obtain ⟨hs, hpan⟩ := hp ht
  obtain ⟨r, hrm, h1, h2, h3⟩ := hr r' hr'
  rw [hj] at he
  rw [hpan] at hn
  have := h hs e he hent n hn r hrm (h1 ▸ hnum)
  rw [h2, h3]
  exact this

/-- Starting a stroke in a pleated step leaves the joint-flag law standing. -/
theorem jointFlags_strokeStarted {s : State} (st : StepRec) (h : JointFlags s) (hp : inPleatedStep s.former = true) :
    JointFlags (strokeStarted st s) := by
  refine jointFlags_refine h rfl (fun _ => ⟨hp, rfl⟩) ?_
  intro r' hr'
  obtain ⟨r, hr, rfl⟩ := List.mem_map.mp hr'
  refine ⟨r, hr, ?_⟩
  split <;> exact ⟨rfl, rfl, rfl⟩

theorem jointFlags_startStroke {s : State} {st : StepRec} (hs : currentStep s = some st) (h : JointFlags s)
    (hp : inPleatedStep s.former = true) : JointFlags (startStroke s).1 := by
  rw [startStroke_eq hs]
  exact jointFlags_refine (jointFlags_strokeStarted st h hp) rfl (fun _ => ⟨by
    unfold strokeStarted inPleatedStep
    by_cases h0 : strokeCount s.former st s.former.rep = 0 <;> simp [h0], rfl⟩) (fun r hr => ⟨r, hr, rfl, rfl, rfl⟩)

/-- A stroke's start, then the rest of the cascade. -/
theorem settles_startStroke {s t : State} {st : StepRec} {k : Nat} {rest : List Sig} (hs : currentStep s = some st)
    (hr : strokeRuns s.former st s.former.rep) (hj : JointFlags s) (hp : inPleatedStep s.former = true)
    (h : Settles k rest (strokeStarted st s) t) :
    Settles (k + 1) ((startStroke s).2 ++ rest) (flagJoints (startStroke s).1) t := by
  have h2 : (startStroke s).2 = [.former] := by rw [startStroke_eq hs]
  rw [h2, flagJoints_self (jointFlags_startStroke hs hj hp)]
  refine Settles.take (formerTest_startStroke hs hr) ?_
  rw [quiet, flagJoints_self (jointFlags_strokeStarted st hj hp)]
  exact h

/-- In WAIT with the trigger reached a stroke starts. -/
theorem settles_wait {s t : State} {st : StepRec} {k : Nat} {rest : List Sig} (hw : s.former.state = .wait)
    (hm : triggerMet s) (hs : currentStep s = some st) (hr : strokeRuns s.former st s.former.rep) (hj : JointFlags s)
    (h : Settles k rest (strokeStarted st s) t) : Settles (k + 2) (.former :: rest) s t := by
  have hp : inPleatedStep s.former = true := by unfold inPleatedStep; rw [hw]
  have ht : triggerReached s = true := by
    obtain ⟨x, hx, hr⟩ := hm
    unfold triggerReached; rw [hx]; exact hr
  refine Settles.take (w := startStroke s) ?_ (settles_startStroke hs hr hj hp h)
  show formerTest s = _
  unfold formerTest
  rw [hw]; simp [ht]

theorem reached_self (p : Pos) : reached p p = true := by simp [reached]

theorem lengthRuns_ahead (p : Pos) {n : Nat} (h : lengthRuns n) : reached p (p + BitVec.ofNat 32 n) = false := by
  rw [reached_add_dist p h.2]; have := h.1; simp; omega

/-- A step entered from LEAD or FLAT, with its first stroke or length begun. -/
theorem settles_enterStep {s t : State} {k i : Nat} {rest : List Sig} (hj : s.tracker.joints = [])
    (hr : stepRuns i s) (h : Settles k rest (stepEntered i s) t) :
    Settles (k + 2) (.former :: rest) (enterStep i s) t := by
  have hn : ∀ u : State, u.tracker.joints = [] → JointFlags u := fun u hu _ e he => by rw [hu] at he; cases he
  have one : ∀ u : State, u.tracker.joints = [] → FormerRests u → Settles k rest u t →
      Settles (k + 2) (.former :: rest) u t := fun u hu hru h n hle => by
    rw [cascade_cons (by omega)]
    show cascade (n - 1) ((formerTest u).2 ++ rest) (flagJoints (formerTest u).1) = t
    rw [formerTest_rests hru, quiet, flagJoints_self (hn u hu)]
    exact h _ (by omega)
  unfold stepRuns at hr
  unfold stepEntered at h
  unfold enterStep
  rw [headPattern_eq]
  cases hst : (patternAhead s).steps[i]? with
  | none =>
    simp only [hst] at hr h ⊢
    have he : enterTail s = tailEntered s := by
      unfold enterTail tailEntered beginLength; rw [headPattern_eq]; rfl
    rw [he]
    refine one _ hj ?_ h
    exact lengthRuns_ahead _ hr
  | some st =>
    simp only [hst] at hr h ⊢
    by_cases hk : st.kind = 3
    · rw [if_pos hk] at hr h
      rw [if_neg (by simp [isPleated_iff, hk])]
      exact one _ hj (lengthRuns_ahead _ hr) h
    · rw [if_neg hk] at hr h
      rw [if_pos ((isPleated_iff st).mpr hk)]
      refine settles_wait rfl ⟨_, rfl, reached_self _⟩ ?_ hr (hn _ hj) h
      show (some i).bind _ = some st
      rw [Option.bind_some, headPattern_eq]
      exact hst

end Sys2Proof.Machine
end

