-- ==== Sys2Proof/Laws/Motion.lean ====
section
/-! SUPPORT. What only the line's own signals change: the Supervisor's state but for its hold causes and the splice limit,
and the web-break timer; and which signals bring a trip. -/

namespace Sys2Proof.Machine

/-- The parts of the state that only the line's own signals change. -/
def motion (s : State) : Supervisor × Option Nat :=
  ({ s.sup with causes := ⟨false, false, false⟩, spliceLimit := false }, s.monitor.breakTimer)

/-- The signals by which the line changes its state. -/
def lineSignal : Sig → Bool
  | .trip _ | .hoodSeen | .warm | .causes | .stopCheck | .reportEnd => true
  | _ => false

section
variable (s : State)

@[simp] theorem motion_onRouter (f : Three RouterPort → Three RouterPort) : motion (s.onRouter f) = motion s := rfl
@[simp] theorem motion_onStore (f : Store → Store) : motion (s.onStore f) = motion s := rfl
@[simp] theorem motion_onQueue (f : RunQueue → RunQueue) : motion (s.onQueue f) = motion s := rfl
@[simp] theorem motion_onFormer (f : Former → Former) : motion (s.onFormer f) = motion s := rfl
@[simp] theorem motion_onTracker (f : Tracker → Tracker) : motion (s.onTracker f) = motion s := rfl
@[simp] theorem motion_onZone (z : Fin 4) (f : Zone → Zone) : motion (s.onZone z f) = motion s := rfl
@[simp] theorem motion_withSettled (b : Bool) : motion (s.withSettled b) = motion s := rfl
@[simp] theorem motion_onDose (f : Dose → Dose) : motion (s.onDose f) = motion s := rfl
@[simp] theorem motion_onZoneMonitor (z : Fin 4) (f : ZoneMonitor → ZoneMonitor) :
    motion (s.onZoneMonitor z f) = motion s := rfl
@[simp] theorem motion_onPlanner (f : Planner → Planner) : motion (s.onPlanner f) = motion s := rfl
@[simp] theorem motion_onCut (f : Cut → Cut) : motion (s.onCut f) = motion s := rfl
@[simp] theorem motion_spliceLimit (b : Bool) :
    motion (s.onSup fun v => { v with spliceLimit := b }) = motion s := rfl
@[simp] theorem motion_causes (c : HoldCauses) : motion (s.onSup fun v => { v with causes := c }) = motion s := rfl
@[simp] theorem motion_raise (k : EventKind) (d : List Byte) : motion (raise k d s) = motion s := rfl
@[simp] theorem motion_onPanel (n : BitVec 16) (f : PanelRec → PanelRec) : motion (onPanel n f s) = motion s := rfl
@[simp] theorem motion_onSlot (i : Fin 16) (f : Slot → Slot) : motion (onSlot i f s) = motion s := rfl
@[simp] theorem motion_writeMark (k : MarkKind) (p : Option (BitVec 16)) : motion (writeMark k p s) = motion s := rfl

@[simp] theorem motion_onFormingPanel (f : PanelRec → PanelRec) : motion (onFormingPanel f s) = motion s := by
  unfold onFormingPanel; split <;> rfl

@[simp] theorem motion_flagJoints : motion (flagJoints s) = motion s := by
  unfold flagJoints; split <;> simp

@[simp] theorem motion_queuedFell : motion (queuedFell s) = motion s := by unfold queuedFell; split <;> rfl

@[simp] theorem motion_activate : motion (activate s) = motion s := by unfold activate; split <;> simp

@[simp] theorem motion_retire (k : Nat) : motion (retire k s) = motion s := by unfold retire; split <;> rfl

@[simp] theorem motion_countPanel : motion (countPanel s) = motion s := by
  unfold countPanel; dsimp only; split
  · rfl
  · split
    · simp [onHead]
    · split <;> simp [onHead]

@[simp] theorem motion_countAborted : motion (countAborted s) = motion s := by
  unfold countAborted; split
  · rfl
  · split <;> simp

@[simp] theorem motion_nameFreeze (n : Option Nat) : motion (nameFreeze n s) = motion s := rfl

@[simp] theorem motion_chooseTarget : motion (chooseTarget s) = motion s := by unfold chooseTarget; split <;> rfl

@[simp] theorem motion_cutSeesEnd : motion (cutSeesEnd s) = motion s := by unfold cutSeesEnd; split <;> simp

@[simp] theorem motion_cutSeesStart : motion (cutSeesStart s) = motion s := by
  unfold cutSeesStart; split
  · rfl
  · split
    · split
      · rfl
      · dsimp only; split <;> rfl
    · rfl

@[simp] theorem motion_closePanel (n : BitVec 16) (a : Bool) : motion (closePanel n a s) = motion s := by
  simp [closePanel]

@[simp] theorem motion_queueReport (r : PanelRec) : motion (queueReport r s) = motion s := by
  unfold queueReport; dsimp only; split <;> rfl

@[simp] theorem motion_panelAtKnife (n : BitVec 16) : motion (panelAtKnife n s).1 = motion s := by
  unfold panelAtKnife; split
  · rfl
  · split
    · simp
    · rfl

@[simp] theorem motion_passKnife : motion (passKnife s).1 = motion s := by
  unfold passKnife; split
  · rfl
  · split
    · dsimp only; split <;> simp
    · rfl

@[simp] theorem motion_markJoint : motion (markJoint s) = motion s := by unfold markJoint; dsimp only; split <;> rfl

@[simp] theorem motion_markArrivals (g : RollGeometry) (p : Pos) (es : List Joint) :
    motion (markArrivals g p es s) = motion s := by
  induction es generalizing s with
  | nil => rfl
  | cons e es ih => rw [markArrivals, ih]; split <;> simp

@[simp] theorem motion_handTarget (t : Nat) (z : Fin 4) : motion (handTarget t z s) = motion s := by
  unfold handTarget; split <;> rfl

@[simp] theorem motion_retarget : motion (retarget s) = motion s := by simp [retarget, zonesInOrder]

@[simp] theorem motion_reportSettled (f : Bool) : motion (reportSettled f s).1 = motion s := by
  unfold reportSettled; dsimp only; split
  · rfl
  · dsimp only; split <;> rfl

@[simp] theorem motion_drainTest : motion (drainTest s).1 = motion s := by
  unfold drainTest; split
  · rfl
  · split
    · simp
    · rfl

@[simp] theorem motion_testRollLow : motion (testRollLow s) = motion s := by
  unfold testRollLow; split
  · rfl
  · split <;> rfl

@[simp] theorem motion_schedule (c : Candidate) : motion (schedule c s) = motion s := rfl
@[simp] theorem motion_unschedule : motion (unschedule s) = motion s := rfl
@[simp] theorem motion_forceSplice : motion (forceSplice s) = motion s := rfl
@[simp] theorem motion_leaveFired : motion (leaveFired s) = motion s := by simp [leaveFired]

@[simp] theorem motion_search (b : Bool) : motion (search b s).1 = motion s := by
  unfold search; dsimp only; split
  · rfl
  · rfl
  · split
    · rfl
    · split <;> rfl
  · split <;> rfl
  all_goals rfl

@[simp] theorem motion_withdrawSplice (c : Option FailCause) : motion (withdrawSplice c s).1 = motion s := by
  unfold withdrawSplice; split
  · dsimp only; split <;> simp [announceFailure]
  · rfl

@[simp] theorem motion_setCauses (c : HoldCauses) : motion (setCauses c s) = motion s := by
  unfold setCauses; split
  · rfl
  · dsimp only; split <;> rfl

@[simp] theorem motion_withdrawCauses : motion (withdrawCauses s) = motion s := by simp [withdrawCauses]

@[simp] theorem motion_leaveBoundaryHold : motion (leaveBoundaryHold s) = motion s := by
  unfold leaveBoundaryHold; split <;> simp

@[simp] theorem motion_enterStep (i : Nat) : motion (enterStep i s) = motion s := by
  unfold enterStep; split
  · rfl
  · split <;> rfl

@[simp] theorem motion_recordLate : motion (recordLate s) = motion s := by unfold recordLate; split <;> simp

@[simp] theorem motion_enterFeed (st : StepRec) : motion (enterFeed st s) = motion s := by
  unfold enterFeed; dsimp only; split <;> simp [beginLength]

@[simp] theorem motion_startStroke : motion (startStroke s).1 = motion s := by
  unfold startStroke; split
  · rfl
  · simp

@[simp] theorem motion_afterStroke : motion (afterStroke s) = motion s := by
  unfold afterStroke; split
  · split
    · rfl
    · split
      · rfl
      · split <;> rfl
  · rfl

@[simp] theorem motion_endRetract : motion (endRetract s).1 = motion s := by
  unfold endRetract; split
  · rfl
  · dsimp only; split
    · simp
    · split <;> simp

@[simp] theorem motion_holdFor (h : HoldReason) : motion (holdFor h s) = motion s := by simp [holdFor]
@[simp] theorem motion_restIdle : motion (restIdle s) = motion s := by simp [restIdle]
@[simp] theorem motion_startBridge (i : Fin 4) : motion (startBridge i s) = motion s := by simp [startBridge]

@[simp] theorem motion_startPanel : motion (startPanel s) = motion s := by
  unfold startPanel; dsimp only; split
  · simp
  · simp [beginLength, beginPanel]

@[simp] theorem motion_boundaryTest : motion (boundaryTest s).1 = motion s := by
  unfold boundaryTest; split
  · rfl
  · split
    · dsimp only; rw [motion_holdFor]; split <;> rfl
    · split
      · split
        · simp
        · split <;> simp
      · split
        · simp
        · split <;> simp

@[simp] theorem motion_endPanel : motion (endPanel s).1 = motion s := by
  unfold endPanel; split
  · rfl
  · simp

@[simp] theorem motion_noteLate : motion (noteLate s) = motion s := by unfold noteLate; split <;> rfl

@[simp] theorem motion_keepReached : motion (keepReached s) = motion s := by unfold keepReached; split <;> rfl

@[simp] theorem motion_endFollow : motion (endFollow s).1 = motion s := by
  unfold endFollow; split
  · simp
  · split
    · split
      · rfl
      · simp
    · rfl
  · simp
  all_goals rfl

@[simp] theorem motion_formerTest : motion (formerTest s).1 = motion s := by
  unfold formerTest; split
  · split <;> simp [quiet]
  · split <;> simp [quiet]
  · split <;> simp [quiet]
  · split <;> simp [quiet]
  · dsimp only [quiet]; split <;> simp [endFeed]
  · simp [quiet]
  · simp [quiet]
  · split <;> simp [quiet]
  · simp [quiet]
  all_goals rfl

@[simp] theorem motion_resumeWork : motion (resumeWork s).1 = motion s := by
  unfold resumeWork; dsimp only; split
  · rw [motion_startStroke]; rfl
  · rfl

@[simp] theorem motion_formerAbort : motion (formerAbort s).1 = motion s := by
  have hp : motion (abortPanel s) = motion s := by unfold abortPanel; split <;> simp
  have hb : ∀ s, motion (abortBridge s) = motion s := by
    intro s; unfold abortBridge; split <;> simp
  simp [formerAbort, quiet, hb, hp]

end

/-- No other signal changes the line's motion. -/
theorem motion_handle (g : Sig) (s : State) (h : lineSignal g = false) : motion (handle g s).1 = motion s := by
  cases g <;> first | exact absurd h (by decide) | simp only [handle, quiet]
  case trip => exact absurd h (by simp [lineSignal])
  case settled force => simp
  case drain => simp
  case former => simp
  case boundary => simp
  case space => unfold spaceTest; split <;> rfl
  case formerRun =>
    unfold formerRun; split
    · rfl
    · split
      · rfl
      · split
        · exact motion_resumeWork s
        · rfl
      all_goals rfl
  case formerPause =>
    unfold formerPause; split
    case h_6 => simp [quiet]
    all_goals rfl
  case abort => simp
  case bridge => unfold bridgeTest; split <;> rfl
  case joints => simp [arriveJoints]
  case jointsPast => simp [passJoints]
  case track x => rfl
  case jointPassed x => unfold jointPassed; split <;> rfl
  case knife => simp
  case search b => simp
  case deadline =>
    unfold deadlineTest; split
    · split <;> rfl
    · rfl
  case approach =>
    unfold approachTest; split
    · split <;> rfl
    · rfl
  case fire =>
    unfold fireTest; split
    · split <;> rfl
    · rfl
  case window =>
    unfold windowTest; split
    · split
      · simp [announceFailure]
      · rfl
    · rfl
  case dueExpiry =>
    unfold dueExpiryTest; split
    · rfl
    · split <;> rfl
  case rollOut =>
    unfold rollOutTest; dsimp only; split
    · simp [quiet]
    · split <;> simp [quiet]
  case cancelSplice c => simp

/-- The signals that bring a trip: the trip itself, and the test of the roll's end. -/
def tripSignal : Sig → Bool
  | .trip _ | .rollOut => true
  | _ => false

/-- A list without such a signal. -/
def tripFree (gs : List Sig) : Bool := gs.all fun g => !tripSignal g

theorem tripFree_enterLine (l : LineState) (s : State) : tripFree (enterLine l s).2 = true := by
  cases l <;> first | rfl | skip
  unfold enterLine; dsimp only; split <;> rfl

theorem tripFree_startStroke (s : State) : tripFree (startStroke s).2 = true := by unfold startStroke; split <;> rfl

theorem tripFree_formerTest (s : State) : tripFree (formerTest s).2 = true := by
  have hr : tripFree (endRetract s).2 = true := by
    unfold endRetract; split
    · rfl
    · dsimp only; split
      · rfl
      · split
        · exact tripFree_startStroke _
        · rfl
  have hf : tripFree (endFollow s).2 = true := by
    unfold endFollow; split
    · rfl
    · split
      · split <;> rfl
      · rfl
    · unfold endPanel; split <;> rfl
    all_goals rfl
  unfold formerTest; split
  · split
    · exact hf
    · rfl
  · split
    · exact hf
    · rfl
  · split
    · exact hf
    · rfl
  · split
    · exact tripFree_startStroke s
    · rfl
  · rfl
  · rfl
  · rfl
  · split
    · exact hr
    · rfl
  all_goals rfl

theorem tripFree_passKnife (s : State) : tripFree (passKnife s).2 = true := by
  unfold passKnife; split
  · rfl
  · split
    · dsimp only; split
      · unfold panelAtKnife; split
        · rfl
        · split <;> rfl
      · rfl
    · rfl

/-- No other signal brings a signal that trips the line. -/
theorem tripFree_handle (g : Sig) (s : State) (h : tripSignal g = false) : tripFree (handle g s).2 = true := by
  cases g <;> simp only [handle, quiet]
  case trip => exact absurd h (by simp [tripSignal])
  case rollOut => exact absurd h (by simp [tripSignal])
  case hoodSeen =>
    unfold hoodSeen; split
    · exact tripFree_enterLine _ _
    · rfl
  case warm =>
    unfold warmTest; split
    · exact tripFree_enterLine _ _
    · rfl
  case causes =>
    unfold causesChanged; split
    · exact tripFree_enterLine _ _
    · split
      · exact tripFree_enterLine _ _
      · rfl
  case stopCheck =>
    unfold stopCheck; split
    · exact tripFree_enterLine _ _
    · rfl
  case reportEnd =>
    unfold reportEnd; split
    · exact tripFree_enterLine _ _
    · rfl
  case settled force => unfold reportSettled; dsimp only; split <;> rfl
  case drain =>
    unfold drainTest; split
    · rfl
    · split <;> rfl
  case former => exact tripFree_formerTest s
  case boundary =>
    unfold boundaryTest; split
    · rfl
    · split
      · rfl
      · split
        · split
          · rfl
          · split <;> rfl
        · split
          · rfl
          · split <;> rfl
  case space => unfold spaceTest; split <;> rfl
  case formerRun =>
    unfold formerRun; split
    · rfl
    · split
      · rfl
      · split
        · unfold resumeWork; dsimp only; split
          · exact tripFree_startStroke _
          · rfl
        · rfl
      all_goals rfl
  case formerPause => unfold formerPause; split <;> rfl
  case bridge => unfold bridgeTest; split <;> rfl
  case jointsPast =>
    simp only [passJoints, tripFree, List.all_map, List.all_eq_true]
    intro x _; rfl
  case jointPassed x => unfold jointPassed; split <;> rfl
  case knife => exact tripFree_passKnife s
  case search b =>
    unfold search; dsimp only; split
    · rfl
    · rfl
    · split
      · rfl
      · split <;> rfl
    · split <;> rfl
    all_goals rfl
  case deadline =>
    unfold deadlineTest; split
    · split <;> rfl
    · rfl
  case approach =>
    unfold approachTest; split
    · split <;> rfl
    · rfl
  case fire =>
    unfold fireTest; split
    · split <;> rfl
    · rfl
  case window =>
    unfold windowTest; split
    · split <;> rfl
    · rfl
  case dueExpiry =>
    unfold dueExpiryTest; split
    · rfl
    · split <;> rfl
  case cancelSplice c => unfold withdrawSplice; split <;> rfl
  all_goals rfl

/-- A law kept by every signal but a trip survives every cascade that holds no trip. -/
theorem settle_keeps_tripFree {P : State → Prop} (hflag : ∀ s, P s → P (flagJoints s))
    (hhandle : ∀ g s, tripSignal g = false → P s → P (handle g s).1) (w : Work) (h : P w.1)
    (hw : tripFree w.2 = true) : P (settle w) := by
  refine settle_keeps_of (A := fun g => tripSignal g = false) hflag (fun g s hg hp => ⟨hhandle g s hg hp, ?_⟩) w h ?_
  · intro g' hg'
    have := List.all_eq_true.mp (tripFree_handle g s hg) g' hg'
    simpa using this
  · intro g hg
    have := List.all_eq_true.mp hw g hg
    simpa using this

end Sys2Proof.Machine
end

