-- ==== Sys2Proof/Laws/Serve.lean ====
section
/-! SUPPORT. What serving a request can do, said once: the checks of R8, and the answered port around the block's own
effect. -/

namespace Sys2Proof.Machine

open Sys2Proof.Safety

theorem keptBytes_bytes (kind : Byte) (f : Frame) :
    keptBytes (f.bytes kind) =
      kind :: BitVec.ofNat 8 f.payload.length :: (f.payload ++ f.extra).take 61 := by
  simp [keptBytes, Frame.bytes]

/-- A payload that a length byte can announce makes a complete frame, whatever is clocked after it (R5, R8). -/
theorem parseFrame_bytes (kind : Byte) (f : Frame) (h : f.payload.length ≤ 60) :
    parseFrame (keptBytes (f.bytes kind)) = some (kind, f.payload) := by
  have hn : (BitVec.ofNat 8 f.payload.length).toNat = f.payload.length := by
    simp only [BitVec.toNat_ofNat]; omega
  rw [keptBytes_bytes kind f, parseFrame, hn]
  have hl : f.payload.length ≤ ((f.payload ++ f.extra).take 61).length := by
    simp only [List.length_take, List.length_append]; omega
  simp only [h, hl, and_self, if_true, Option.some.injEq, Prod.mk.injEq, true_and]
  rw [List.take_take, Nat.min_eq_left (by omega), List.take_append_of_le_length (Nat.le_refl _), List.take_length]

/-- The state a block sees: the frame shifted in and counted (R3, R9). -/
def received (kind : Byte) (f : Frame) (s : State) : State :=
  countFrame f.port (shiftIn f.port (f.bytes kind) s)

/-- What the received frame leaves in every other field. -/
theorem received_eq (kind : Byte) (f : Frame) (s : State) :
    received kind f s = { s with ports := (received kind f s).ports } := rfl

section
variable (kind : Byte) (f : Frame) (s : State)

@[simp] theorem received_pins : (received kind f s).pins = s.pins := rfl
@[simp] theorem received_router : (received kind f s).router = s.router := rfl
@[simp] theorem received_store : (received kind f s).store = s.store := rfl
@[simp] theorem received_queue : (received kind f s).queue = s.queue := rfl
@[simp] theorem received_former : (received kind f s).former = s.former := rfl
@[simp] theorem received_tracker : (received kind f s).tracker = s.tracker := rfl
@[simp] theorem received_zones : (received kind f s).zones = s.zones := rfl
@[simp] theorem received_settled : (received kind f s).settledReported = s.settledReported := rfl
@[simp] theorem received_dose : (received kind f s).dose = s.dose := rfl
@[simp] theorem received_monitor : (received kind f s).monitor = s.monitor := rfl
@[simp] theorem received_roll : (received kind f s).roll = s.roll := rfl
@[simp] theorem received_sup : (received kind f s).sup = s.sup := rfl
@[simp] theorem received_free : (received kind f s).free = s.free := rfl
@[simp] theorem received_pending : (received kind f s).pending = s.pending := rfl

end

theorem answeredPort_eq (kind : Byte) (f : Frame) (a : Answer) (s : State) :
    (received kind f s).ports.set f.port
        { (received kind f s).ports.get f.port with response := ⟨kind, a.status, a.payload⟩, rxFrame := [] } =
      s.ports.set f.port (answeredPort kind f a.status a.payload (s.ports.get f.port)) := by
  simp [received, countFrame, shiftIn, answeredPort, refreshed]

/-- The answer around an effect that leaves the ports alone. -/
theorem respond_eq (kind : Byte) (f : Frame) (a : Answer) (s t : State) (h : t.ports = (received kind f s).ports) :
    respond f.port kind a t =
      { t with ports := s.ports.set f.port (answeredPort kind f a.status a.payload (s.ports.get f.port)) } := by
  simp only [respond, State.onPort, h, answeredPort_eq]

theorem respond_received (kind : Byte) (f : Frame) (a : Answer) (s : State) :
    respond f.port kind a (received kind f s) = answered kind f a.status a.payload s :=
  respond_eq kind f a s _ rfl

/-- A permitted request of an allowed length is its block's: effect and answer (R8). -/
theorem serve_taken {kind : Byte} {auth : Option Port} {lengthOk : Nat → Bool}
    {block : Port → List Byte → State → State × Answer} {f : Frame} (s : State) (hp : f.payload.length ≤ 60)
    (ha : auth = none ∨ auth = some f.port) (hl : lengthOk f.payload.length = true) :
    serve kind auth lengthOk block f s =
      respond f.port kind (block f.port f.payload (received kind f s)).2
        (block f.port f.payload (received kind f s)).1 := by
  have hr : ((shiftIn f.port (f.bytes kind) s).ports.get f.port).rxFrame = keptBytes (f.bytes kind) := by
    simp [shiftIn]
  have hn : ¬(auth ≠ none ∧ auth ≠ some f.port) := by
    rintro ⟨h1, h2⟩; rcases ha with h | h
    · exact h1 h
    · exact h2 h
  unfold serve
  simp only [hr, parseFrame_bytes kind f hp, hn, if_false, hl, if_true]
  rfl

/-- A request on a foreign port (R8 step 3). -/
theorem serve_notPermitted {kind : Byte} {auth : Option Port} {lengthOk : Nat → Bool}
    {block : Port → List Byte → State → State × Answer} {f : Frame} (s : State) (hp : f.payload.length ≤ 60)
    (h0 : auth ≠ none) (h1 : auth ≠ some f.port) :
    serve kind auth lengthOk block f s = answered kind f .notPermitted [] s := by
  have hr : ((shiftIn f.port (f.bytes kind) s).ports.get f.port).rxFrame = keptBytes (f.bytes kind) := by
    simp [shiftIn]
  unfold serve
  simp only [hr, parseFrame_bytes kind f hp, h0, h1, ne_eq, not_false_eq_true, and_self, if_true]
  exact respond_received kind f ⟨.notPermitted, []⟩ s

/-- A permitted request of a length its kind does not allow (R8 step 4). -/
theorem serve_badLength {kind : Byte} {auth : Option Port} {lengthOk : Nat → Bool}
    {block : Port → List Byte → State → State × Answer} {f : Frame} (s : State) (hp : f.payload.length ≤ 60)
    (ha : auth = none ∨ auth = some f.port) (hl : lengthOk f.payload.length = false) :
    serve kind auth lengthOk block f s = answered kind f .badLength [] s := by
  have hr : ((shiftIn f.port (f.bytes kind) s).ports.get f.port).rxFrame = keptBytes (f.bytes kind) := by
    simp [shiftIn]
  have hn : ¬(auth ≠ none ∧ auth ≠ some f.port) := by
    rintro ⟨h1, h2⟩; rcases ha with h | h
    · exact h1 h
    · exact h2 h
  unfold serve
  simp only [hr, parseFrame_bytes kind f hp, hn, if_false, hl, Bool.false_eq_true]
  exact respond_received kind f ⟨.badLength, []⟩ s

theorem discard_eq (p : Port) (bytes : List Byte) (s : State) :
    discardFrame p bytes s = discarded p bytes s := by
  simp [discardFrame, discarded, respond, countBad, shiftIn, State.onPort, discardedPort]

/-- A request whose length byte is above 60 is an incomplete frame (R8 step 1). -/
theorem serve_tooLong {kind : Byte} {auth : Option Port} {lengthOk : Nat → Bool}
    {block : Port → List Byte → State → State × Answer} {f : Frame} (s : State) (h1 : 60 < f.payload.length)
    (h2 : f.payload.length ≤ 255) :
    serve kind auth lengthOk block f s = discarded f.port (f.bytes kind) s := by
  have hn : (BitVec.ofNat 8 f.payload.length).toNat = f.payload.length := by
    simp only [BitVec.toNat_ofNat]; omega
  have hr : ((shiftIn f.port (f.bytes kind) s).ports.get f.port).rxFrame = keptBytes (f.bytes kind) := by
    simp [shiftIn]
  have hpf : parseFrame (keptBytes (f.bytes kind)) = none := by
    simp only [keptBytes, Frame.bytes, List.take_succ_cons, parseFrame, hn]
    rw [if_neg]; omega
  unfold serve
  simp only [hr, hpf]
  rw [← discard_eq]
  rfl

end Sys2Proof.Machine
end

