-- ==== Sys2Proof/Laws/Requests.lean ====
section
/-! SUPPORT. Each request row on its own port with an allowed length: the answered port around its block's effect on the
received frame (R8). -/

namespace Sys2Proof.Machine

/-- The answer around a block's work on a received frame. -/
def answeredBy (kind : Byte) (block : Port → List Byte → State → State × Answer) (f : Frame) (s : State) : State :=
  respond f.port kind (block f.port f.payload (received kind f s)).2 (block f.port f.payload (received kind f s)).1

section
variable {f : Frame} (s : State)

theorem exec_nop (hp : f.payload.length ≤ 60) :
    exec (.nop f) s = .next (answeredBy 0x01 (fun _ _ s => okWith [] s) f s) :=
  congrArg _ (serve_taken s hp (Or.inl rfl) rfl)

theorem exec_lineView (hp : f.payload.length ≤ 60) (hl : (exactly 3) f.payload.length = true) :
    exec (.lineView f) s = .next (answeredBy 0x02 statusRead f s) :=
  congrArg _ (serve_taken s hp (Or.inl rfl) hl)

theorem exec_zoneView (hp : f.payload.length ≤ 60) (hl : (exactly 3) f.payload.length = true) :
    exec (.zoneView f) s = .next (answeredBy 0x02 statusRead f s) :=
  congrArg _ (serve_taken s hp (Or.inl rfl) hl)

theorem exec_formerView (hp : f.payload.length ≤ 60) (hl : (exactly 3) f.payload.length = true) :
    exec (.formerView f) s = .next (answeredBy 0x02 statusRead f s) :=
  congrArg _ (serve_taken s hp (Or.inl rfl) hl)

theorem exec_queueView (hp : f.payload.length ≤ 60) (hl : (exactly 3) f.payload.length = true) :
    exec (.queueView f) s = .next (answeredBy 0x02 statusRead f s) :=
  congrArg _ (serve_taken s hp (Or.inl rfl) hl)

theorem exec_panelView (hp : f.payload.length ≤ 60) (hl : (exactly 3) f.payload.length = true) :
    exec (.panelView f) s = .next (answeredBy 0x02 statusRead f s) :=
  congrArg _ (serve_taken s hp (Or.inl rfl) hl)

theorem exec_mapView (hp : f.payload.length ≤ 60) (hl : (exactly 3) f.payload.length = true) :
    exec (.mapView f) s = .next (answeredBy 0x02 statusRead f s) :=
  congrArg _ (serve_taken s hp (Or.inl rfl) hl)

theorem exec_spliceView (hp : f.payload.length ≤ 60) (hl : (exactly 3) f.payload.length = true) :
    exec (.spliceView f) s = .next (answeredBy 0x02 statusRead f s) :=
  congrArg _ (serve_taken s hp (Or.inl rfl) hl)

theorem exec_portView (hp : f.payload.length ≤ 60) (hl : (exactly 3) f.payload.length = true) :
    exec (.portView f) s = .next (answeredBy 0x02 statusRead f s) :=
  congrArg _ (serve_taken s hp (Or.inl rfl) hl)

theorem exec_eventTake (hp : f.payload.length ≤ 60) (hl : (exactly 0) f.payload.length = true) :
    exec (.eventTake f) s = .next (answeredBy 0x03 Sys2Proof.Machine.eventTake f s) :=
  congrArg _ (serve_taken s hp (Or.inl rfl) hl)

theorem exec_routeSet (hp : f.payload.length ≤ 60) (hl : (exactly 2) f.payload.length = true) :
    exec (.routeSet f) s = .next (answeredBy 0x04 Sys2Proof.Machine.routeSet f s) :=
  congrArg _ (serve_taken s hp (Or.inl rfl) hl)

theorem exec_floorSet (hp : f.payload.length ≤ 60) (hl : (exactly 1) f.payload.length = true) :
    exec (.floorSet f) s = .next (answeredBy 0x05 Sys2Proof.Machine.floorSet f s) :=
  congrArg _ (serve_taken s hp (Or.inl rfl) hl)

theorem exec_presenceSet (hp : f.payload.length ≤ 60) (hl : (exactly 1) f.payload.length = true) :
    exec (.presenceSet f) s = .next (answeredBy 0x06 Sys2Proof.Machine.presenceSet f s) :=
  congrArg _ (serve_taken s hp (Or.inl rfl) hl)

theorem exec_lineStart (hp : f.payload.length ≤ 60) (ha : f.port = .line) (hl : (exactly 0) f.payload.length = true) :
    exec (.lineStart f) s = .next (answeredBy 0x10 Sys2Proof.Machine.lineStart f s) :=
  congrArg _ (serve_taken s hp (Or.inr (congrArg some ha.symm)) hl)

theorem exec_lineStopImmediate (hp : f.payload.length ≤ 60) (ha : f.port = .line) (hl : (exactly 1) f.payload.length = true) :
    exec (.lineStopImmediate f) s = .next (answeredBy 0x11 lineStop f s) :=
  congrArg _ (serve_taken s hp (Or.inr (congrArg some ha.symm)) hl)

theorem exec_lineStopEndOfPanel (hp : f.payload.length ≤ 60) (ha : f.port = .line) (hl : (exactly 1) f.payload.length = true) :
    exec (.lineStopEndOfPanel f) s = .next (answeredBy 0x11 lineStop f s) :=
  congrArg _ (serve_taken s hp (Or.inr (congrArg some ha.symm)) hl)

theorem exec_lineReset (hp : f.payload.length ≤ 60) (ha : f.port = .line) (hl : (exactly 0) f.payload.length = true) :
    exec (.lineReset f) s = .next (answeredBy 0x12 Sys2Proof.Machine.lineReset f s) :=
  congrArg _ (serve_taken s hp (Or.inr (congrArg some ha.symm)) hl)

theorem exec_speedSet (hp : f.payload.length ≤ 60) (ha : f.port = .line) (hl : (exactly 2) f.payload.length = true) :
    exec (.speedSet f) s = .next (answeredBy 0x13 Sys2Proof.Machine.speedSet f s) :=
  congrArg _ (serve_taken s hp (Or.inr (congrArg some ha.symm)) hl)

theorem exec_recipeSet (hp : f.payload.length ≤ 60) (ha : f.port = .line) (hl : (exactly 26) f.payload.length = true) :
    exec (.recipeSet f) s = .next (answeredBy 0x14 Sys2Proof.Machine.recipeSet f s) :=
  congrArg _ (serve_taken s hp (Or.inr (congrArg some ha.symm)) hl)

theorem exec_zoneSet (hp : f.payload.length ≤ 60) (ha : f.port = .line) (hl : (exactly 11) f.payload.length = true) :
    exec (.zoneSet f) s = .next (answeredBy 0x15 zoneSetRequest f s) :=
  congrArg _ (serve_taken s hp (Or.inr (congrArg some ha.symm)) hl)

theorem exec_zoneDisable (hp : f.payload.length ≤ 60) (ha : f.port = .line) (hl : (exactly 11) f.payload.length = true) :
    exec (.zoneDisable f) s = .next (answeredBy 0x15 zoneSetRequest f s) :=
  congrArg _ (serve_taken s hp (Or.inr (congrArg some ha.symm)) hl)

theorem exec_zoneArm (hp : f.payload.length ≤ 60) (ha : f.port = .line) (hl : (exactly 11) f.payload.length = true) :
    exec (.zoneArm f) s = .next (answeredBy 0x15 zoneSetRequest f s) :=
  congrArg _ (serve_taken s hp (Or.inr (congrArg some ha.symm)) hl)

theorem exec_zoneEnable (hp : f.payload.length ≤ 60) (ha : f.port = .line) (hl : (exactly 11) f.payload.length = true) :
    exec (.zoneEnable f) s = .next (answeredBy 0x15 zoneSetRequest f s) :=
  congrArg _ (serve_taken s hp (Or.inr (congrArg some ha.symm)) hl)

theorem exec_monitorSetZone (hp : f.payload.length ≤ 60) (ha : f.port = .line) (hl : (fun n => exactly 5 n || exactly 6 n) f.payload.length = true) :
    exec (.monitorSetZone f) s = .next (answeredBy 0x16 monitorSet f s) :=
  congrArg _ (serve_taken s hp (Or.inr (congrArg some ha.symm)) hl)

theorem exec_monitorSetLine (hp : f.payload.length ≤ 60) (ha : f.port = .line) (hl : (fun n => exactly 5 n || exactly 6 n) f.payload.length = true) :
    exec (.monitorSetLine f) s = .next (answeredBy 0x16 monitorSet f s) :=
  congrArg _ (serve_taken s hp (Or.inr (congrArg some ha.symm)) hl)

theorem exec_faultClear (hp : f.payload.length ≤ 60) (ha : f.port = .line) (hl : (exactly 0) f.payload.length = true) :
    exec (.faultClear f) s = .next (answeredBy 0x17 Sys2Proof.Machine.faultClear f s) :=
  congrArg _ (serve_taken s hp (Or.inr (congrArg some ha.symm)) hl)

theorem exec_formerSet (hp : f.payload.length ≤ 60) (ha : f.port = .line) (hl : (exactly 15) f.payload.length = true) :
    exec (.formerSet f) s = .next (answeredBy 0x18 Sys2Proof.Machine.formerSet f s) :=
  congrArg _ (serve_taken s hp (Or.inr (congrArg some ha.symm)) hl)

theorem exec_tunnelSet (hp : f.payload.length ≤ 60) (ha : f.port = .line) (hl : (exactly 10) f.payload.length = true) :
    exec (.tunnelSet f) s = .next (answeredBy 0x19 Sys2Proof.Machine.tunnelSet f s) :=
  congrArg _ (serve_taken s hp (Or.inr (congrArg some ha.symm)) hl)

theorem exec_motionSet (hp : f.payload.length ≤ 60) (ha : f.port = .line) (hl : (exactly 7) f.payload.length = true) :
    exec (.motionSet f) s = .next (answeredBy 0x1A Sys2Proof.Machine.motionSet f s) :=
  congrArg _ (serve_taken s hp (Or.inr (congrArg some ha.symm)) hl)

theorem exec_inputSet (hp : f.payload.length ≤ 60) (ha : f.port = .line) (hl : (exactly 6) f.payload.length = true) :
    exec (.inputSet f) s = .next (answeredBy 0x1B Sys2Proof.Machine.inputSet f s) :=
  congrArg _ (serve_taken s hp (Or.inr (congrArg some ha.symm)) hl)

theorem exec_rollGeometrySet (hp : f.payload.length ≤ 60) (ha : f.port = .line) (hl : (exactly 48) f.payload.length = true) :
    exec (.rollGeometrySet f) s = .next (answeredBy 0x1C Sys2Proof.Machine.rollGeometrySet f s) :=
  congrArg _ (serve_taken s hp (Or.inr (congrArg some ha.symm)) hl)

theorem exec_patternBegin (hp : f.payload.length ≤ 60) (ha : f.port = .pattern) (hl : (exactly 6) f.payload.length = true) :
    exec (.patternBegin f) s = .next (answeredBy 0x20 Sys2Proof.Machine.patternBegin f s) :=
  congrArg _ (serve_taken s hp (Or.inr (congrArg some ha.symm)) hl)

theorem exec_patternSteps (hp : f.payload.length ≤ 60) (ha : f.port = .pattern) (hl : (stepsLength) f.payload.length = true) :
    exec (.patternSteps f) s = .next (answeredBy 0x21 Sys2Proof.Machine.patternSteps f s) :=
  congrArg _ (serve_taken s hp (Or.inr (congrArg some ha.symm)) hl)

theorem exec_patternEnd (hp : f.payload.length ≤ 60) (ha : f.port = .pattern) (hl : (exactly 0) f.payload.length = true) :
    exec (.patternEnd f) s = .next (answeredBy 0x22 Sys2Proof.Machine.patternEnd f s) :=
  congrArg _ (serve_taken s hp (Or.inr (congrArg some ha.symm)) hl)

theorem exec_patternDelete (hp : f.payload.length ≤ 60) (ha : f.port = .pattern) (hl : (exactly 1) f.payload.length = true) :
    exec (.patternDelete f) s = .next (answeredBy 0x23 Sys2Proof.Machine.patternDelete f s) :=
  congrArg _ (serve_taken s hp (Or.inr (congrArg some ha.symm)) hl)

theorem exec_orderQueue (hp : f.payload.length ≤ 60) (ha : f.port = .pattern) (hl : (exactly 4) f.payload.length = true) :
    exec (.orderQueue f) s = .next (answeredBy 0x24 Sys2Proof.Machine.orderQueue f s) :=
  congrArg _ (serve_taken s hp (Or.inr (congrArg some ha.symm)) hl)

theorem exec_orderCancel (hp : f.payload.length ≤ 60) (ha : f.port = .pattern) (hl : (exactly 1) f.payload.length = true) :
    exec (.orderCancel f) s = .next (answeredBy 0x25 Sys2Proof.Machine.orderCancel f s) :=
  congrArg _ (serve_taken s hp (Or.inr (congrArg some ha.symm)) hl)

theorem exec_reportTake (hp : f.payload.length ≤ 60) (ha : f.port = .pattern) (hl : (exactly 0) f.payload.length = true) :
    exec (.reportTake f) s = .next (answeredBy 0x26 Sys2Proof.Machine.reportTake f s) :=
  congrArg _ (serve_taken s hp (Or.inr (congrArg some ha.symm)) hl)

theorem exec_queueLowSet (hp : f.payload.length ≤ 60) (ha : f.port = .pattern) (hl : (exactly 1) f.payload.length = true) :
    exec (.queueLowSet f) s = .next (answeredBy 0x27 Sys2Proof.Machine.queueLowSet f s) :=
  congrArg _ (serve_taken s hp (Or.inr (congrArg some ha.symm)) hl)

theorem exec_rollStatus (hp : f.payload.length ≤ 60) (ha : f.port = .roll) (hl : (exactly 4) f.payload.length = true) :
    exec (.rollStatus f) s = .next (answeredBy 0x30 Sys2Proof.Machine.rollStatus f s) :=
  congrArg _ (serve_taken s hp (Or.inr (congrArg some ha.symm)) hl)

theorem exec_spliceArm (hp : f.payload.length ≤ 60) (ha : f.port = .roll) (hl : (exactly 0) f.payload.length = true) :
    exec (.spliceArm f) s = .next (answeredBy 0x31 Sys2Proof.Machine.spliceArm f s) :=
  congrArg _ (serve_taken s hp (Or.inr (congrArg some ha.symm)) hl)

theorem exec_spliceForce (hp : f.payload.length ≤ 60) (ha : f.port = .roll) (hl : (exactly 0) f.payload.length = true) :
    exec (.spliceForce f) s = .next (answeredBy 0x32 Sys2Proof.Machine.spliceForce f s) :=
  congrArg _ (serve_taken s hp (Or.inr (congrArg some ha.symm)) hl)

theorem exec_spliceCancel (hp : f.payload.length ≤ 60) (ha : f.port = .roll) (hl : (exactly 0) f.payload.length = true) :
    exec (.spliceCancel f) s = .next (answeredBy 0x33 Sys2Proof.Machine.spliceCancel f s) :=
  congrArg _ (serve_taken s hp (Or.inr (congrArg some ha.symm)) hl)

theorem exec_cutRequestNextEnd (hp : f.payload.length ≤ 60) (ha : f.port = .roll) (hl : (exactly 1) f.payload.length = true) :
    exec (.cutRequestNextEnd f) s = .next (answeredBy 0x34 cutRequest f s) :=
  congrArg _ (serve_taken s hp (Or.inr (congrArg some ha.symm)) hl)

theorem exec_cutRequestForce (hp : f.payload.length ≤ 60) (ha : f.port = .roll) (hl : (exactly 1) f.payload.length = true) :
    exec (.cutRequestForce f) s = .next (answeredBy 0x34 cutRequest f s) :=
  congrArg _ (serve_taken s hp (Or.inr (congrArg some ha.symm)) hl)

theorem exec_cutCancel (hp : f.payload.length ≤ 60) (ha : f.port = .roll) (hl : (exactly 0) f.payload.length = true) :
    exec (.cutCancel f) s = .next (answeredBy 0x35 Sys2Proof.Machine.cutCancel f s) :=
  congrArg _ (serve_taken s hp (Or.inr (congrArg some ha.symm)) hl)

end

/-- An effect and an answer around it that leave the ports to the answer. -/
theorem answeredBy_eq {kind : Byte} {block : Port → List Byte → State → State × Answer} {f : Frame} {s t : State}
    {a : Answer} (h : block f.port f.payload (received kind f s) = (t, a))
    (hp : t.ports = (received kind f s).ports) :
    answeredBy kind block f s =
      { t with ports := s.ports.set f.port (Safety.answeredPort kind f a.status a.payload (s.ports.get f.port)) } := by
  simp only [answeredBy, h]
  exact respond_eq kind f a s t hp

/-- A refusal, or an answer with no effect. -/
theorem answeredBy_same {kind : Byte} {block : Port → List Byte → State → State × Answer} {f : Frame} {s : State}
    {a : Answer} (h : block f.port f.payload (received kind f s) = (received kind f s, a)) :
    answeredBy kind block f s = Safety.answered kind f a.status a.payload s := by
  simp only [answeredBy, h]
  exact respond_received kind f a s

theorem leBytes_length (n v : Nat) : (leBytes n v).length = n := by
  induction n generalizing v with
  | zero => rfl
  | succ n ih => simp [leBytes, ih]

/-- Changing an element that is there. -/
theorem modify_eq_set {α : Type} (l : List α) (i : Nat) (f : α → α) (x : α) (h : l[i]? = some x) :
    l.modify i f = l.set i (f x) := by
  apply List.ext_getElem?
  intro n
  rw [List.getElem?_modify, List.getElem?_set]
  by_cases hn : i = n
  · subst hn
    obtain ⟨hi, hx⟩ := List.getElem?_eq_some_iff.mp h
    simp [hi, hx]
  · simp [hn]

/-! ### Fields of a payload -/

theorem drop_byte (pl : List Byte) (i : Nat) (h : i < pl.length) : pl.drop i = pl.getD i 0 :: pl.drop (i + 1) := by
  rw [List.drop_eq_getElem_cons h]; simp [List.getD, List.getElem?_eq_getElem h]

/-- A field of one byte; the next three say the same of two, three and four (section 5.5 of 00_scope.md). -/
theorem field_u8 (pl : List Byte) (i : Nat) (h : i + 1 ≤ pl.length) : Safety.field pl i 1 = u8 pl i := by
  rw [Safety.field, drop_byte pl i (by omega)]; simp [leNat, u8]

theorem field_u16 (pl : List Byte) (i : Nat) (h : i + 2 ≤ pl.length) : Safety.field pl i 2 = u16 pl i := by
  rw [Safety.field, drop_byte pl i (by omega), drop_byte pl (i + 1) (by omega)]; simp [leNat, u16]

theorem field_u24 (pl : List Byte) (i : Nat) (h : i + 3 ≤ pl.length) : Safety.field pl i 3 = u24 pl i := by
  rw [Safety.field, drop_byte pl i (by omega), drop_byte pl (i + 1) (by omega), drop_byte pl (i + 2) (by omega)]
  simp [leNat, u24]

theorem field_u32 (pl : List Byte) (i : Nat) (h : i + 4 ≤ pl.length) : Safety.field pl i 4 = u32 pl i := by
  rw [Safety.field, drop_byte pl i (by omega), drop_byte pl (i + 1) (by omega), drop_byte pl (i + 2) (by omega),
    drop_byte pl (i + 3) (by omega)]
  simp [leNat, u32]

end Sys2Proof.Machine
end

