-- ==== Sys2Proof/Laws/Search.lean ====
section
/-! SUPPORT. The splice search as the statements name it is the planner's: the layout, said as one list of lengths; what it
finds; and the state a search leaves (R158 to R162). -/

namespace Sys2Proof.Machine

open Sys2Proof.Safety

/-! ### The layout as a list -/

/-- Lengths laid one after another, until a choice is made. -/
def layAll (k : LayContext) (xs : List LengthAhead) (l : Lay) : Lay :=
  xs.foldl (fun l x => if l.found.isSome then l else layLength k x.order x.pleated x.length l) l

theorem layAll_append (k : LayContext) (xs ys : List LengthAhead) (l : Lay) :
    layAll k (xs ++ ys) l = layAll k ys (layAll k xs l) := List.foldl_append

theorem layAll_found (k : LayContext) (xs : List LengthAhead) {l : Lay} (h : l.found.isSome = true) :
    layAll k xs l = l := by
  induction xs with
  | nil => rfl
  | cons x xs ih =>
    show layAll k xs (if l.found.isSome then l else _) = l
    rw [if_pos h, ih]

theorem layAll_cons (k : LayContext) (x : LengthAhead) (xs : List LengthAhead) {l : Lay} (h : l.found.isSome = false) :
    layAll k (x :: xs) l = layAll k xs (layLength k x.order x.pleated x.length l) := by
  show layAll k xs (if l.found.isSome then l else _) = _
  rw [if_neg (by simp [h])]

theorem layRepeats_eq (k : LayContext) (id : Nat) (st : StepRec) (n r : Nat) (l : Lay) :
    layRepeats k id st n r l =
      layAll k ((List.range' r n).map fun j =>
        if st.kind = 3 then ⟨false, st.width, id⟩ else ⟨true, pleatLength st (pleatDepth st j), id⟩) l := by
  induction n generalizing r l with
  | zero => rfl
  | succ n ih =>
    cases h : l.found.isSome with
    | true => rw [layAll_found _ _ h, layRepeats, if_pos h]
    | false =>
      rw [layRepeats, if_neg (by simp [h]), ih, List.range'_succ, List.map_cons, layAll_cons _ _ _ h]
      congr 1
      by_cases hk : st.kind = 3
      · simp [hk, isPleated]
      · simp [hk, isPleated, strokeLength_eq]

theorem stepLengths_eq (k : LayContext) (id : Nat) (st : StepRec) (r : Nat) (l : Lay) :
    layRepeats k id st (st.rep - r) r l = layAll k (stepLengths id st r) l := layRepeats_eq _ _ _ _ _ _

theorem laySteps_eq (k : LayContext) (id : Nat) (steps : List StepRec) (l : Lay) :
    laySteps k id steps l = layAll k (steps.flatMap fun st => stepLengths id st 0) l := by
  induction steps generalizing l with
  | nil => rfl
  | cons st rest ih =>
    cases h : l.found.isSome with
    | true => rw [layAll_found _ _ h, laySteps, if_pos h]
    | false =>
      rw [laySteps, if_neg (by simp [h]), ih, List.flatMap_cons, layAll_append, ← stepLengths_eq]
      rfl

theorem layTail_eq (k : LayContext) (id : Nat) (sl : Slot) (steps : List StepRec) (l : Lay) :
    layTail k id sl (laySteps k id steps l) = layAll k (stepsAndTail id sl steps) l := by
  rw [stepsAndTail, layAll_append, ← laySteps_eq, layTail]
  cases h : (laySteps k id steps l).found.isSome with
  | true => rw [layAll_found _ _ h]; rfl
  | false => rw [layAll_cons _ _ _ h]; rfl

theorem layPanel_eq (k : LayContext) (id : Nat) (sl : Slot) {l : Lay} (h : l.found.isSome = false) :
    layPanel k id sl l = layAll k (panelLengths id sl) l := by
  rw [panelLengths, layAll_cons _ _ _ h, ← layTail_eq, layPanel]

theorem layPanels_eq (k : LayContext) (id : Nat) (sl : Slot) (n : Nat) (l : Lay) :
    layPanels k id sl n l = layAll k (List.replicate n (panelLengths id sl)).flatten l := by
  induction n generalizing l with
  | zero => rfl
  | succ n ih =>
    cases h : l.found.isSome with
    | true => rw [layAll_found _ _ h, layPanels, if_pos h]
    | false =>
      rw [layPanels, if_neg (by simp [h]), ih, List.replicate_succ, List.flatten_cons, layAll_append, layPanel_eq _ _ _ h]

theorem layOrders_eq (s : State) {k : LayContext} (hk : k.slots = s.store.slots) (recipe : Fin 4) (os : List Order)
    (l : Lay) : layOrders k recipe os l = layAll k (queueLengths s recipe os) l := by
  induction os generalizing l with
  | nil => rfl
  | cons o os ih =>
    cases h : l.found.isSome with
    | true => rw [layAll_found _ _ h, layOrders, if_pos (.inl h)]
    | false =>
      by_cases hr : o.recipe = recipe
      · have hp : patternOf k o = slotAt s o.pattern := by rw [patternOf, hk]; rfl
        rw [layOrders, if_neg (by simp [h, hr]), queueLengths, if_pos hr, layAll_append, orderLengths, ← layPanels_eq, hp]
        by_cases hc : o.count = 0
        · simp only [hc, if_true]; rfl
        · simp only [hc, if_false]; exact ih _
      · rw [layOrders, if_pos (.inr hr), queueLengths, if_neg hr]; rfl

/-! ### What the layout finds -/

/-- The run in hand as the stretch in hand. -/
def runAhead (r : FlatRun) : StretchAhead := ⟨r.start, r.len, r.owner⟩

/-- A stretch as the candidate it is. -/
def candidateOf (g : RollGeometry) (x : StretchAhead) : Candidate :=
  ⟨fireAt g x, ⟨x.start, some (x.start + BitVec.ofNat 32 x.count)⟩, some x.order⟩

/-- A stretch that a search in a context may choose. -/
def mayPick (k : LayContext) (x : StretchAhead) : Bool := decide (k.geo.c ≤ x.count) && choosable k (fireAt k.geo x)

/-- The layout's end closes the run in hand. -/
def finishLay (k : LayContext) (l : Lay) : Option Candidate := (if l.found.isSome then l else closeRun k l).found

theorem closeRun_eq (k : LayContext) (p : Pos) (c : Nat) (r : FlatRun) :
    closeRun k ⟨p, c, some r, none⟩ =
      ⟨p, c, none, if mayPick k (runAhead r) = true then some (candidateOf k.geo (runAhead r)) else none⟩ := by
  unfold closeRun mayPick runAhead candidateOf
  dsimp only
  by_cases h : k.geo.c ≤ r.len ∧ choosable k (firePosition k.geo r.start r.len) = true
  · have h' : (decide (k.geo.c ≤ r.len) && choosable k (fireAt k.geo ⟨r.start, r.len, r.owner⟩)) = true := by
      rw [Bool.and_eq_true, decide_eq_true_eq]; exact h
    rw [if_pos h, if_pos h']; rfl
  · have h' : ¬(decide (k.geo.c ≤ r.len) && choosable k (fireAt k.geo ⟨r.start, r.len, r.owner⟩)) = true := by
      rw [Bool.and_eq_true, decide_eq_true_eq]; exact h
    rw [if_neg h, if_neg h']

theorem finish_layAll (k : LayContext) (xs : List LengthAhead) (p : Pos) (c : Nat) (run : Option FlatRun) :
    finishLay k (layAll k xs ⟨p, c, run, none⟩) =
      ((stretchesFrom (run.map runAhead) p (converted k.set c xs)).find? (mayPick k)).map (candidateOf k.geo) := by
  induction xs generalizing p c run with
  | nil =>
    cases run with
    | none => rfl
    | some r =>
      show (closeRun k ⟨p, c, some r, none⟩).found = _
      rw [closeRun_eq]
      show _ = ([runAhead r].find? (mayPick k)).map (candidateOf k.geo)
      rw [List.find?_cons]
      cases mayPick k (runAhead r) <;> rfl
  | cons x xs ih =>
    rw [layAll_cons _ _ _ rfl, converted]
    have hn : ∀ o, issuedCount k.set c x.length = (⟨x.pleated, (x.length * k.set.inNum + c) / k.set.inDen, o⟩ : SpanAhead).count :=
      fun _ => rfl
    cases hx : x.pleated with
    | false =>
      cases run with
      | none => exact ih _ _ (some _)
      | some r => exact ih _ _ (some _)
    | true =>
      cases run with
      | none =>
        show finishLay k (layAll k xs _) = ((stretchesFrom none (p + _) _).find? _).map _
        rw [layLength, if_pos rfl, laySpanPleated]
        by_cases h0 : issuedCount k.set c x.length = 0
        · have hp : p + BitVec.ofNat 32 ((x.length * k.set.inNum + c) / k.set.inDen) = p := by
            have : (x.length * k.set.inNum + c) / k.set.inDen = 0 := h0
            rw [this]; simp
          rw [hp]
          dsimp only
          rw [if_pos h0]
          exact ih _ _ none
        · dsimp only
          rw [if_neg h0]
          exact ih _ _ none
      | some r =>
        rw [layLength, if_pos rfl, laySpanPleated]
        by_cases h0 : issuedCount k.set c x.length = 0
        · dsimp only
          rw [if_pos h0, Option.map_some, stretchesFrom, if_pos rfl,
            if_pos (show (x.length * k.set.inNum + c) / k.set.inDen = 0 from h0)]
          exact ih _ _ (some r)
        · dsimp only
          rw [if_neg h0, Option.map_some, stretchesFrom, if_pos rfl,
            if_neg (show ¬(x.length * k.set.inNum + c) / k.set.inDen = 0 from h0), closeRun_eq, List.find?_cons]
          cases hp : mayPick k (runAhead r) with
          | true =>
            rw [layAll_found _ _ (by rfl)]
            rfl
          | false => exact ih _ _ none

theorem closeRun_idle {k : LayContext} {l : Lay} (h : l.run = none) : closeRun k l = l := by unfold closeRun; rw [h]

/-- Once a choice is made no run is in hand. -/
theorem layLength_run {k : LayContext} {id n : Nat} {b : Bool} {l : Lay} (hl : l.found = none)
    (h : (layLength k id b n l).found.isSome = true) : (layLength k id b n l).run = none := by
  obtain ⟨p, c, run, f⟩ := l
  cases hl
  revert h
  unfold layLength laySpanPleated laySpanFlat closeRun
  cases b <;> cases run <;> dsimp only <;> (repeat' split) <;> simp_all

theorem layAll_run (k : LayContext) (xs : List LengthAhead) {l : Lay} (hl : l.found = none)
    (h : (layAll k xs l).found.isSome = true) : (layAll k xs l).run = none := by
  induction xs generalizing l with
  | nil => rw [show layAll k [] l = l from rfl, hl] at h; cases h
  | cons x xs ih =>
    rw [layAll_cons _ _ _ (by rw [hl]; rfl)] at h ⊢
    cases hf : (layLength k x.order x.pleated x.length l).found with
    | none => exact ih hf h
    | some y =>
      have hs : (layLength k x.order x.pleated x.length l).found.isSome = true := by rw [hf]; rfl
      rw [layAll_found _ _ hs]
      exact layLength_run hl hs

/-- A span laid at the start of the layout. -/
theorem stretches_hand (p : Pos) (b : Bool) (n id : Nat) (xs : List SpanAhead) :
    stretchesFrom none p (⟨b, n, id⟩ :: xs) =
      stretchesFrom (if b = true then none else some ⟨p, n, id⟩) (p + BitVec.ofNat 32 n) xs := rfl

/-- The layout behind the present panel, up to what it finds. -/
def layRest (k : LayContext) (o : Order) (os : List Order) (l : Lay) : Option Candidate :=
  let l1 := layPanels k o.id (patternOf k o) (panelsBehind o) l
  let l2 := if endless o then l1 else layOrders k o.recipe os l1
  finishLay k l2

theorem layState_eq (f : Former) : layState f = stateAhead f := by
  unfold layState stateAhead; cases f.state <;> rfl

theorem layout_eq (s : State) (k : LayContext) (hset : k.set = s.former.set) (hgeo : k.geo = s.roll.geo)
    (hp : k.pIn = s.tracker.pIn) (hk : k.slots = s.store.slots) : layout s k = choiceAhead s k.deadline := by
  have hpick : mayPick k = mayChoose s k.deadline := by
    funext x; unfold mayPick mayChoose choosable; rw [hgeo, hp]; rfl
  have hcand : candidateOf k.geo = fun x => ⟨fireAt s.roll.geo x, ⟨x.start, some (x.start + BitVec.ofNat 32 x.count)⟩,
      some x.order⟩ := by rw [hgeo]; rfl
  unfold layout choiceAhead
  dsimp only
  rw [layState_eq]
  by_cases hb : stateAhead s.former = .bridge
  · rw [hb, if_pos rfl, hp, hgeo]; rfl
  rw [if_neg hb]
  cases ho : s.queue.orders with
  | nil =>
    have hs : spansAhead s = [] := by unfold spansAhead; rw [ho]
    rw [hs]
    cases hst : stateAhead s.former <;> first | rfl | exact absurd hst hb
  | cons o os =>
    by_cases hi : stateAhead s.former = .idle
    · rw [hi]
      dsimp only
      unfold spansAhead
      rw [ho]
      dsimp only
      rw [if_pos hi]
      by_cases hr : s.dose.tunnelRecipe = some o.recipe
      · rw [if_pos hr, if_pos hr, layOrders_eq s hk, ← hset, ← hpick, ← hcand, ← hp]
        rw [show stretchesFrom none k.pIn = stretchesFrom ((none : Option FlatRun).map runAhead) k.pIn from rfl,
          ← finish_layAll, finishLay]
        split
        · next h => rw [closeRun_idle (layAll_run k _ rfl h)]
        · rfl
      · rw [if_neg hr, if_neg hr]; rfl
    · have hpat : patternOf k o = slotAt s o.pattern := by rw [patternOf, hk]; rfl
      have hmore : panelsBehind o = if o.cancel = true then 0 else panelsGiven o - 1 := rfl
      -- the lengths behind the one in hand, laid on a layout that has chosen nothing
      have behind : ∀ l : Lay, l.found = none →
          layRest k o os (layAll k (restLengths s o) l) =
          finishLay k (layAll k (restLengths s o ++ orderLengths s o (if o.cancel = true then 0 else panelsGiven o - 1) ++
            (if o.count = 0 ∧ o.cancel = false then [] else queueLengths s o.recipe os)) l) := by
        intro l _
        have he : endless o = decide (o.count = 0 ∧ o.cancel = false) := by
          unfold endless; cases o.cancel <;> simp
        unfold layRest
        dsimp only
        rw [layAll_append, layAll_append, hpat, hmore, orderLengths, layPanels_eq, he]
        by_cases hc : o.count = 0 ∧ o.cancel = false
        · simp only [hc, and_self, decide_true, if_true]; rfl
        · simp only [hc, decide_false, if_false, layOrders_eq s hk, Bool.false_eq_true]
      have present : layPresentPanel k s.former (stateAhead s.former) o ⟨k.pIn, s.former.cIn, none, none⟩ =
          layAll k (restLengths s o)
            (match stateAhead s.former with
              | .lead | .flat | .tail => laySpanFlat o.id (restOf s.former k.pIn) ⟨k.pIn, s.former.cIn, none, none⟩
              | .feed => laySpanPleated k (restOf s.former k.pIn) ⟨k.pIn, s.former.cIn, none, none⟩
              | _ => ⟨k.pIn, s.former.cIn, none, none⟩) := by
        have strokes : ∀ r l, layAfterStep k o.id (slotAt s o.pattern) (s.former.step.getD 0)
            (layRepeats k o.id ((slotAt s o.pattern).steps.getD (s.former.step.getD 0) ⟨3, 0, 0, 0, 0, 0⟩)
              (((slotAt s o.pattern).steps.getD (s.former.step.getD 0) ⟨3, 0, 0, 0, 0, 0⟩).rep - r) r l) =
            layAll k ((match (slotAt s o.pattern).steps[s.former.step.getD 0]? with
                | none => []
                | some st => stepLengths o.id st r) ++
              stepsAndTail o.id (slotAt s o.pattern) ((slotAt s o.pattern).steps.drop (s.former.step.getD 0 + 1))) l := by
          intro r l
          rw [layAll_append, ← layTail_eq, layAfterStep, List.getD_eq_getElem?_getD]
          cases (slotAt s o.pattern).steps[s.former.step.getD 0]? with
          | none =>
            have : (0 : Nat) - r = 0 := by omega
            simp only [Option.getD_none, this]; rfl
          | some st => simp only [Option.getD_some, stepLengths_eq]
        unfold layPresentPanel restLengths
        dsimp only
        rw [hpat]
        cases hst : stateAhead s.former <;> dsimp only
        case idle => exact absurd hst hi
        case bridge => exact absurd hst hb
        case lead => exact layTail_eq _ _ _ _ _
        case tail => rfl
        case held => rfl
        all_goals exact strokes _ _
      have key : layRest k o os (layPresentPanel k s.former (stateAhead s.former) o ⟨k.pIn, s.former.cIn, none, none⟩) =
          ((stretchesFrom none s.tracker.pIn (spansAhead s)).find? (mayChoose s k.deadline)).map fun x =>
            ⟨fireAt s.roll.geo x, ⟨x.start, some (x.start + BitVec.ofNat 32 x.count)⟩, some x.order⟩ := by
        rw [present]
        unfold spansAhead
        rw [ho]
        dsimp only
        rw [if_neg hi, ← hpick, ← hcand, ← hp, ← hset]
        have hand : spanInHand s o.id =
            match stateAhead s.former with
            | .lead | .flat | .tail => [⟨false, restOf s.former k.pIn, o.id⟩]
            | .feed => [⟨true, restOf s.former k.pIn, o.id⟩]
            | _ => [] := by
          unfold spanInHand restOf
          rw [hp]
          dsimp only
          cases stateAhead s.former <;> rfl
        rw [hand]
        have flat : ∀ xs, (stretchesFrom none k.pIn ([⟨false, restOf s.former k.pIn, o.id⟩] ++ converted k.set s.former.cIn xs)) =
            stretchesFrom ((some ⟨k.pIn, restOf s.former k.pIn, o.id⟩ : Option FlatRun).map runAhead)
              (ahead k.pIn (restOf s.former k.pIn)) (converted k.set s.former.cIn xs) := fun _ => rfl
        have pleated : ∀ xs, (stretchesFrom none k.pIn ([⟨true, restOf s.former k.pIn, o.id⟩] ++ converted k.set s.former.cIn xs)) =
            stretchesFrom ((none : Option FlatRun).map runAhead)
              (ahead k.pIn (restOf s.former k.pIn)) (converted k.set s.former.cIn xs) := fun _ => rfl
        have plain : ∀ xs, (stretchesFrom none k.pIn ([] ++ converted k.set s.former.cIn xs)) =
            stretchesFrom ((none : Option FlatRun).map runAhead) k.pIn (converted k.set s.former.cIn xs) := fun _ => rfl
        have hzero : laySpanPleated k (restOf s.former k.pIn) ⟨k.pIn, s.former.cIn, none, none⟩ =
            ⟨ahead k.pIn (restOf s.former k.pIn), s.former.cIn, none, none⟩ := by
          unfold laySpanPleated closeRun
          by_cases h0 : restOf s.former k.pIn = 0
          · rw [if_pos h0, h0]; simp [ahead, dist]
          · rw [if_neg h0]
        cases hst : stateAhead s.former <;> dsimp only
        case lead | flat | tail => rw [behind _ rfl, flat, ← finish_layAll]; rfl
        case feed => rw [behind _ (by rw [hzero]), pleated, hzero, ← finish_layAll]
        all_goals rw [behind _ rfl, plain, ← finish_layAll]
      revert key
      cases hst : stateAhead s.former <;> intro key <;> first | exact key | exact absurd hst hi | exact absurd hst hb

/-- What a search finds is what the statements lay out. -/
theorem searchFinds_eq (s : State) {r : RollStatus} (h : s.roll.planner.status = some r) :
    searchFinds s = searchResult s r := by
  unfold searchFinds searchResult layContext
  rw [h]
  simp only [Option.map_some, Option.bind_some]
  rw [layout_eq s _ rfl rfl rfl rfl]
  rfl

/-! ### What a search leaves -/

theorem freezeThrough_eq (id : Nat) (os : List Order) :
    freezeThrough id os = os.mapIdx fun k o => { o with frozen := decide (k ≤ os.findIdx fun q => q.id == id) } := by
  induction os with
  | nil => rfl
  | cons o os ih =>
    rw [freezeThrough, List.mapIdx_cons, List.findIdx_cons]
    by_cases h : o.id = id
    · rw [if_pos h]
      simp [h, List.mapIdx_eq_zipIdx_map, List.map_eq_iff]
      intro i
      cases os[i]? <;> simp
    · have hid : (o.id == id) = false := by simpa using h
      rw [if_neg h, ih, hid]
      simp

theorem frozenBy_eq (id : Option Nat) (os : List Order) : frozenBy id os = frozenThrough id os := by
  cases id with
  | none => rfl
  | some n => exact freezeThrough_eq n os

theorem schedule_eq (c : Candidate) (s : State) : schedule c s = scheduledOn c s := by
  unfold schedule scheduledOn announce nameFreeze
  rw [← frozenBy_eq]
  rfl

/-- The approach test in SCHEDULED. -/
theorem approachTest_eq {s : State} {p : Pos} (hs : s.roll.planner.state = .scheduled)
    (hp : s.roll.planner.pFire = some p) : approachTest s = quiet (approachedBy p s) := by
  unfold approachTest approachedBy
  rw [hs, hp]
  dsimp only
  by_cases h : reached s.tracker.pIn (p - dist s.roll.geo.a) = true
  · rw [if_pos h, if_pos (by exact h)]; rfl
  · rw [if_neg h, if_neg (by exact h)]

theorem forceSplice_eq (s : State) : forceSplice s = splicedByForce s := rfl

/-- The planner's tests after a search leave the joint flags alone. -/
theorem jointFlags_searchState {s t : State} (h : JointFlags s) (hf : t.former = s.former)
    (ht : t.tracker = s.tracker) : JointFlags t := by
  unfold JointFlags; rw [hf, ht]; exact h

theorem settles_deadline {s : State} {k : Nat} {rest : List Sig} {t : State} (hj : JointFlags s) {r : RollStatus}
    (hs : s.roll.planner.state = .planning) (hr : s.roll.planner.status = some r)
    (h : Settles k rest (deadlineMet r s) t) : Settles (k + 1) (.deadline :: rest) s t := by
  refine Settles.take (w := quiet (deadlineMet r s)) ?_ ?_
  · show deadlineTest s = _
    unfold deadlineTest deadlineMet
    rw [hs, hr]
    dsimp only
    rw [← forceSplice_eq, show deadlineOf s.roll.geo r - dist s.roll.geo.a =
      deadlineAt s.roll.geo r - BitVec.ofNat 32 s.roll.geo.a from rfl]
    split <;> rfl
  · have : JointFlags (deadlineMet r s) := by
      unfold deadlineMet; split
      · exact jointFlags_searchState hj rfl rfl
      · exact hj
    rw [quiet, flagJoints_self this]; exact h

/-- A search of PLANNING or SCHEDULED, with all that follows of it, when the former runs no bridge that a lost stretch
could end. -/
theorem settles_search {s t : State} {k : Nat} {rest : List Sig} (hj : JointFlags s)
    (hb : s.former.state ≠ .bridge ∨ s.roll.planner.state ≠ .scheduled) (hr : s.roll.planner.status ≠ none)
    (h : Settles k rest (searched s) t) : Settles (k + 3) (.search false :: rest) s t := by
  have up : ∀ {a b : Nat} {l : List Sig} {u v : State}, a ≤ b → Settles a l u v → Settles b l u v :=
    fun hab hs n hn => hs n (by omega)
  have same : ∀ u : State, u.former = s.former → u.tracker = s.tracker → flagJoints u = u :=
    fun u h1 h2 => flagJoints_self (jointFlags_searchState hj h1 h2)
  unfold searched at h
  dsimp only at h
  split at h
  · next hn => exact absurd hn hr
  next r hr' =>
  have hf := searchFinds_eq s hr'
  cases hp : s.roll.planner.state with
  | planning =>
    rw [if_pos hp] at h
    cases hc : (searchResult s r).2 with
    | some c =>
      rw [hc] at h
      refine up (show k + 2 ≤ k + 3 by omega) (Settles.take (w := (schedule c (s.onPlanner fun p => { p with outcome := (searchResult s r).1 }), [.approach])) ?_ ?_)
      · show search false s = _
        unfold search; rw [hf]; dsimp only; rw [hp, hc]
      · rw [same _ (by rw [schedule_eq]; rfl) (by rw [schedule_eq]; rfl)]
        refine Settles.take (w := quiet (approachedBy c.pFire (scheduledOn c { s with
          roll := { s.roll with planner := { s.roll.planner with outcome := (searchResult s r).1 } } }))) ?_ ?_
        · rw [schedule_eq]; exact approachTest_eq (s := scheduledOn c
            (s.onPlanner fun p => { p with outcome := (searchResult s r).1 })) (p := c.pFire) rfl rfl
        · rw [quiet, same _ (by unfold approachedBy; split <;> rfl) (by unfold approachedBy; split <;> rfl)]
          exact h
    | none =>
      rw [hc] at h
      refine up (show k + 2 ≤ k + 3 by omega) (Settles.take (w := (s.onPlanner fun p => { p with outcome := (searchResult s r).1 }, [.deadline])) ?_ ?_)
      · show search false s = _
        unfold search; rw [hf]; dsimp only; rw [hp, hc]
      · rw [same (s.onPlanner fun p => { p with outcome := (searchResult s r).1 }) rfl rfl]
        exact settles_deadline (jointFlags_searchState hj rfl rfl) hp hr' h
  | scheduled =>
    rw [if_neg (by rw [hp]; decide), if_pos hp] at h
    cases hc : (searchResult s r).2 with
    | some c =>
      rw [hc] at h
      dsimp only at h
      by_cases he : s.roll.planner.pFire = some c.pFire
      · rw [if_pos he] at h
        refine up (show k + 1 ≤ k + 3 by omega) (Settles.take (w := quiet (s.onPlanner fun p => { p with outcome := (searchResult s r).1 })) ?_ ?_)
        · show search false s = _
          unfold search; rw [hf]; dsimp only; rw [hp, hc]
          dsimp only
          rw [if_pos he]; rfl
        · rw [quiet, same (s.onPlanner fun p => { p with outcome := (searchResult s r).1 }) rfl rfl]; exact h
      · rw [if_neg he] at h
        refine up (show k + 1 ≤ k + 3 by omega) (Settles.take (w := quiet (schedule c (s.onPlanner fun p => { p with outcome := (searchResult s r).1 }))) ?_ ?_)
        · show search false s = _
          unfold search; rw [hf]; dsimp only; rw [hp, hc]
          dsimp only
          rw [if_neg he]; rfl
        · rw [quiet, same _ (by rw [schedule_eq]; rfl) (by rw [schedule_eq]; rfl), schedule_eq]
          exact h
    | none =>
      rw [hc] at h
      have hnb : s.former.state ≠ .bridge := hb.resolve_right fun hn => hn hp
      refine Settles.take (w := (unschedule (s.onPlanner fun p => { p with outcome := (searchResult s r).1 }),
        [.bridge, .deadline])) ?_ ?_
      · show search false s = _
        unfold search; rw [hf]; dsimp only; rw [hp, hc]; rfl
      · rw [same (unschedule (s.onPlanner fun p => { p with outcome := (searchResult s r).1 })) rfl rfl]
        refine Settles.skip (s := unschedule
          (s.onPlanner fun p => { p with outcome := (searchResult s r).1 })) ?_ (same _ rfl rfl) ?_
        · show bridgeTest _ = _
          unfold bridgeTest
          rw [if_neg]
          intro hh
          exact hnb hh.1
        · exact settles_deadline (r := r) (jointFlags_searchState hj rfl rfl) rfl hr' h
  | idle | approach | fired =>
    rw [if_neg (by rw [hp]; decide), if_neg (by rw [hp]; decide)] at h
    refine up (show k + 1 ≤ k + 3 by omega) (Settles.skip ?_ (flagJoints_self hj) h)
    show search false s = _
    unfold search; rw [hp]

end Sys2Proof.Machine
end

