-- ==== Sys2Proof/Laws/Views.lean ====
section
/-! SUPPORT. The views' payloads are as long as their layouts say, 60 bytes at most (R13), and are the layouts of the view
tables byte for byte. -/

namespace Sys2Proof.Machine

open Sys2Proof.Safety

theorem lineViewBytes_length (s : State) : (lineViewBytes s).length = 31 := by
  unfold lineViewBytes
  simp only [List.length_append]
  simp only [byte1, bytes2, leBytes_length]

theorem zoneViewBytes_length (s : State) (z : Fin 4) : (zoneViewBytes s z).length = 25 := by
  unfold zoneViewBytes
  simp only [List.length_append]
  simp only [byte1, bytes2, leBytes_length]

theorem formerViewBytes_length (s : State) : (formerViewBytes s).length = 24 := by
  unfold formerViewBytes
  simp only [List.length_append]
  simp only [byte1, bytes2, posBytes, panelBytes, leBytes_length]

theorem ordersBytes_length (a : Bool) (os : List Order) : (ordersBytes a os).length = 7 * os.length := by
  induction os generalizing a with
  | nil => rfl
  | cons o os ih =>
    simp only [ordersBytes, orderBytes, List.length_append, ih, List.length_cons]
    simp only [byte1, bytes2, leBytes_length]; omega

theorem queueViewBytes_length (s : State) :
    (queueViewBytes s).length =
      4 + 7 * s.queue.orders.length + (if s.store.load ≠ none ∧ s.queue.orders.length < 8 then 1 else 0) := by
  unfold queueViewBytes; dsimp only; split
  · next h => simp [byte1, leBytes_length, ordersBytes_length, h]; omega
  · next h => simp [byte1, leBytes_length, ordersBytes_length, h]; split <;> simp [leBytes_length] <;> omega

theorem recordBytes_length (r : PanelRec) : (recordBytes r).length = 40 := by
  unfold recordBytes
  simp only [List.length_append]
  simp only [byte1, bytes2, bytes3, posBytes, panelBytes, leBytes_length]

theorem markBytes_length (ms : List Mark) : (ms.flatMap markBytes).length = 7 * ms.length := by
  induction ms with
  | nil => rfl
  | cons a l ih =>
    have ha : (markBytes a).length = 7 := by
      unfold markBytes
      simp only [List.length_append]
      simp only [byte1, posBytes, panelBytes, leBytes_length]
    simp only [List.flatMap_cons, List.length_append, ih, ha, List.length_cons]; omega

theorem mapViewBytes_length (s : State) : (mapViewBytes s).length = 27 + 7 * min 4 s.tracker.map.length := by
  unfold mapViewBytes
  simp only [List.length_append, markBytes_length, List.length_take]
  simp only [byte1, posBytes, leBytes_length]

theorem spliceViewBytes_length (s : State) : (spliceViewBytes s).length = 48 := by
  unfold spliceViewBytes rollStatusBytes
  split <;> simp only [List.length_append] <;>
    simp only [byte1, bytes4, posBytes, panelBytes, leBytes_length]

theorem portViewBytes_length (p : Port) (s : State) : (portViewBytes p s).length = 16 := by
  unfold portViewBytes portBytes
  simp only [List.length_append]
  simp only [byte1, bytes2, leBytes_length]

/-! ### The layouts -/

theorem le1_eq (v : Nat) : le1 v = byte1 v := rfl
theorem le2_eq (v : Nat) : le2 v = bytes2 v := rfl
theorem le3_eq (v : Nat) : le3 v = bytes3 v := by simp [le3, bytes3, leBytes, Nat.div_div_eq_div_mul]
theorem le4_eq (v : Nat) : le4 v = bytes4 v := by simp [le4, bytes4, leBytes, Nat.div_div_eq_div_mul]
theorem wt_eq (b : Bool) (w : Nat) : wt b w = bit b w := rfl
theorem posBytes_eq (p : Pos) : posBytes p = bytes4 p.toNat := rfl
theorem panelBytes_eq (n : BitVec 16) : panelBytes n = bytes2 n.toNat := rfl

theorem lineCode_eq (l : LineState) : lineCode l = lineStateCode l := by cases l <;> rfl

theorem recipeCode_eq (i : Option (Fin 4)) : recipeCode i = orNone255 i := by cases i <;> rfl

theorem monitorFlagByte_eq (m : Monitor) (z : Fin 4) : monitorFlagByte m z = monitorFlags m z := by
  simp [monitorFlagByte, monitorFlags, wt_eq, Nat.pos_iff_ne_zero]

theorem entryOf_eq (s : State) : entryOf s = tunnelEntry s := by
  unfold entryOf tunnelEntry; split <;> simp_all

theorem bandCode_eq (s : State) (z : Fin 4) :
    bandCode s z = bandStatusCode (bandOf (tunnelEntry s) (s.zones.get z)) := by
  unfold bandCode bandOf; rw [entryOf_eq]
  cases tunnelEntry s with
  | none => rfl
  | some r =>
    dsimp only
    by_cases h1 : (s.zones.get z).state = .off
    · rw [if_pos h1, if_pos h1]; rfl
    · rw [if_neg h1, if_neg h1]
      by_cases h2 : (s.zones.get z).target + r.band < (s.zones.get z).measured
      · rw [if_pos h2, if_pos h2]; rfl
      · rw [if_neg h2, if_neg h2]; split <;> rfl

theorem lineViewBytes_eq (s : State) : lineViewBytes s = lineLayout s := by
  have hc : ((s.sup.tripCause.map tripCauseCode).getD 0) = (match s.sup.tripCause with
      | none => 0
      | some c => 1 + codeIn [.estop, .webBreak, .webReverse, .feedTimeout, .bladeJam, .hoodFault, .rollOut] c) := by
    cases s.sup.tripCause with
    | none => rfl
    | some c => cases c <;> rfl
  have hh : hoodStateCode s.sup.hood = codeIn [.up, .lowering, .down, .raising] s.sup.hood := by
    cases s.sup.hood <;> rfl
  unfold lineViewBytes lineLayout
  simp only [hc, hh, le1_eq, le2_eq, lineCode_eq, recipeCode_eq, monitorFlagByte_eq, causesCode, wt_eq, lineFlags, running] <;> rfl

theorem zoneViewBytes_eq (s : State) (z : Fin 4) : zoneViewBytes s z = zoneLayout s z := by
  have hb : decide (bandCode s z = 1) = decide (bandOf (tunnelEntry s) (s.zones.get z) = .inBand) := by
    rw [bandCode_eq]; cases bandOf (tunnelEntry s) (s.zones.get z) <;> rfl
  have hs : zoneStateCode (s.zones.get z).state =
      codeIn [.off, .soft, .regulating, .purge, .tripped, .probeFault] (s.zones.get z).state := by
    cases (s.zones.get z).state <;> rfl
  unfold zoneViewBytes zoneLayout
  simp only [le1_eq, le2_eq, ← bandCode_eq, hs, entryOf_eq, zoneFlags, wt_eq, inBand, zoneSettled, ventOpen,
    Bool.decide_and, Bool.decide_or, hb, Nat.pos_iff_ne_zero, Bool.and_assoc] <;> rfl

theorem formerViewBytes_eq (s : State) : formerViewBytes s = formerLayout (passedLimit s) s.former := by
  have hs : ∀ st, formerStateCode st = codeIn formerStates st := by intro st; cases st <;> rfl
  have hr : ((s.former.resume.map formerStateCode).getD 255) = (match s.former.resume with
      | none => 255
      | some r => codeIn formerStates r) := by
    cases s.former.resume with
    | none => rfl
    | some r => exact hs r
  have hh : holdReasonCode s.former.hold = codeIn [.none, .stoppedMid, .starved, .trackFull] s.former.hold := by
    cases s.former.hold <;> rfl
  unfold formerViewBytes formerLayout
  simp only [hr, hh, hs, le1_eq, le2_eq, le4_eq, posBytes_eq, panelBytes_eq, formerFlags, wt_eq] <;> rfl

theorem ordersBytes_eq (a : Bool) (os : List Order) (n : Nat) (h : n = 0 ∨ a = false) :
    ordersBytes a os = (os.zipIdx n).flatMap fun x =>
      le1 x.1.id ++ le1 x.1.pattern.val ++ le2 x.1.count ++ le2 x.1.done ++
        le1 (x.1.recipe.val + wt (a && decide (x.2 = 0)) 4 + wt x.1.cancel 8 + wt x.1.frozen 16) := by
  induction os generalizing a n with
  | nil => rfl
  | cons o os ih =>
    have hrest : ∀ b, (os.zipIdx (n + 1)).flatMap (fun x =>
        le1 x.1.id ++ le1 x.1.pattern.val ++ le2 x.1.count ++ le2 x.1.done ++
          le1 (x.1.recipe.val + wt (b && decide (x.2 = 0)) 4 + wt x.1.cancel 8 + wt x.1.frozen 16)) =
        (os.zipIdx (n + 1)).flatMap (fun x =>
        le1 x.1.id ++ le1 x.1.pattern.val ++ le2 x.1.count ++ le2 x.1.done ++
          le1 (x.1.recipe.val + wt (false && decide (x.2 = 0)) 4 + wt x.1.cancel 8 + wt x.1.frozen 16)) := by
      intro b
      simp only [List.flatMap_def]
      congr 1
      apply List.map_congr_left
      intro x hx
      have : n + 1 ≤ x.2 := List.le_snd_of_mem_zipIdx hx
      have h0 : ¬x.2 = 0 := by omega
      simp [h0]
    rw [List.zipIdx_cons, List.flatMap_cons, hrest a, ordersBytes, ih false (n + 1) (Or.inr rfl)]
    have hn : (a && decide (n = 0)) = a := by
      rcases h with h | h <;> simp [h]
    simp only [orderBytes, orderAttributes, le1_eq, le2_eq, wt_eq, hn]

theorem queueViewBytes_eq (s : State) : queueViewBytes s = queueLayout s := by
  unfold queueViewBytes queueLayout queuedCount stepsReceived; dsimp only
  rw [ordersBytes_eq s.queue.active s.queue.orders 0 (Or.inl rfl)]
  simp only [le1_eq, le2_eq, wt_eq, bit]
  split
  · next h => simp [h]
  · next i h => simp [h]

theorem recordBytes_eq (r : PanelRec) : recordBytes r = recordLayout r := by
  have hs : panelStateCode r.state = codeIn [.forming, .travelling, .waitingReport, .reported] r.state := by
    cases r.state <;> rfl
  have hv : rankOf r.verdict = codeIn [.none, .good, .under, .over, .unverified, .scorch] r.verdict := by
    cases r.verdict <;> rfl
  unfold recordBytes recordLayout
  simp only [hs, hv, le1_eq, le2_eq, le3_eq, le4_eq, posBytes_eq, panelBytes_eq, panelFlags, wt_eq]

theorem mapViewBytes_eq (s : State) : mapViewBytes s = mapLayout s := by
  have hk : ∀ k, markKindCode k = codeIn [.panelStart, .panelEnd, .joint, .bridgeStart, .bridgeEnd] k := by
    intro k; cases k <;> rfl
  have hb : ∀ n : BitVec 32, posBytes n = bytes4 n.toNat := fun _ => rfl
  unfold mapViewBytes mapLayout markBytes
  simp only [hk, le1_eq, le2_eq, le4_eq, hb, panelBytes_eq, filteredLevels, wt_eq, readPin]

theorem spliceViewBytes_eq (s : State) :
    spliceViewBytes s =
      spliceLayout s (Config.remainingWhenUnknown s.free) (Config.deadlineWhenUnknown s.free) := by
  have hp : plannerStateCode s.roll.planner.state =
      codeIn [.idle, .planning, .scheduled, .approach, .fired] s.roll.planner.state := by
    cases s.roll.planner.state <;> rfl
  have hc : cutStateCode s.roll.cut.state = codeIn [.idle, .waiting, .fired] s.roll.cut.state := by
    cases s.roll.cut.state <;> rfl
  have ho : searchOutcomeCode s.roll.planner.outcome =
      codeIn [.noneMade, .candidate, .noCandidate, .noFreeMarks] s.roll.planner.outcome := by
    cases s.roll.planner.outcome <;> rfl
  have hr : rollStatusBytes s = (match s.roll.planner.status with
      | none => le4 0 ++ le4 (Config.remainingWhenUnknown s.free).toNat ++
          le4 (Config.deadlineWhenUnknown s.free).toNat ++ le4 0
      | some r => le4 r.pStatus.toNat ++ le4 r.remaining ++ le4 (deadlineAt s.roll.geo r).toNat ++
          le4 (if reached s.tracker.pIn (runsOutAt r) = true then 0 else (runsOutAt r - s.tracker.pIn).toNat)) := by
    unfold rollStatusBytes
    cases s.roll.planner.status with
    | none => simp only [le4_eq, posBytes_eq]
    | some r => simp only [le4_eq, posBytes_eq]; rfl
  unfold spliceViewBytes spliceLayout
  simp only [hp, hc, ho, hr, le1_eq, le2_eq, le4_eq, posBytes_eq, panelBytes_eq, spliceFlags, cutFlags, wt_eq, spliceFire,
    cutFire, running]
  cases s.roll.planner.stretch <;> cases s.roll.cut.target <;> simp [bit, List.append_assoc] <;> rfl

end Sys2Proof.Machine
end

