-- ==== Sys2Proof/WellFormed.lean ====
section
/-! DEFINITION. Which commands are well formed: a payload a length byte of 0..60 can announce (R5, R8), rows of one
request kind told apart by their payload, a frame row that is what its name says (R8, R10). -/

namespace Sys2Proof

/-- A request's payload fits a frame (R8 step 1). -/
def Frame.wf (f : Frame) : Bool := decide (f.payload.length ≤ 60)

/-- Byte `i` of the payload, 0 beyond its end. -/
def Frame.byte (f : Frame) (i : Nat) : Nat := (f.payload.getD i 0).toNat

/-- A view row: its payload names that view, or is one that STATUS_READ refuses before it looks for a view (R13). -/
def Frame.viewWf (view : Nat) (f : Frame) : Bool :=
  f.wf && (decide (f.payload.length ≠ 3) || decide (7 < f.byte 0) || decide (f.byte 0 = view))

/-- A row of a request kind split by a payload byte: the payload has another length than `n` (it is refused), or byte
`i` is `v`, or `bad` says that the byte is refused. -/
def Frame.formWf (n i v : Nat) (bad : Nat → Bool) (f : Frame) : Bool :=
  f.wf && (decide (f.payload.length ≠ n) || bad (f.byte i) || decide (f.byte i = v))

/-- The well-formed commands. -/
def Instr.wf : Instr → Bool
  | .deviceReset => true
  | .emptyTransaction _ => true
  | .incompleteFrame _ bytes => (parseFrame (keptBytes bytes)).isNone
  | .unknownKindFrame kind f => f.wf && !requestKinds.contains kind
  | .nop f => f.wf
  | .lineView f => f.viewWf 0
  | .zoneView f => f.viewWf 1
  | .formerView f => f.viewWf 2
  | .queueView f => f.viewWf 3
  | .panelView f => f.viewWf 4
  | .mapView f => f.viewWf 5
  | .spliceView f => f.viewWf 6
  | .portView f => f.viewWf 7
  | .eventTake f => f.wf
  | .routeSet f => f.wf
  | .floorSet f => f.wf
  | .presenceSet f => f.wf
  | .lineStart f => f.wf
  | .lineStopImmediate f => f.formWf 1 0 0 (fun b => decide (1 < b))
  | .lineStopEndOfPanel f => f.formWf 1 0 1 (fun b => decide (1 < b))
  | .lineReset f => f.wf
  | .speedSet f => f.wf
  | .recipeSet f => f.wf
  | .zoneSet f => f.wf
  | .zoneDisable f => f.formWf 11 1 0 (fun b => decide (2 < b))
  | .zoneArm f => f.formWf 11 2 1 (fun b => decide (1 < b))
  | .zoneEnable f => f.formWf 11 1 1 (fun b => decide (2 < b))
  | .monitorSetZone f => f.wf && !(decide (f.payload.length = 5) && decide (f.byte 0 = 4))
  | .monitorSetLine f => f.wf && !(decide (f.payload.length = 6) && decide (f.byte 0 ≤ 3))
  | .faultClear f => f.wf
  | .formerSet f => f.wf
  | .tunnelSet f => f.wf
  | .motionSet f => f.wf
  | .inputSet f => f.wf
  | .rollGeometrySet f => f.wf
  | .patternBegin f => f.wf
  | .patternSteps f => f.wf
  | .patternEnd f => f.wf
  | .patternDelete f => f.wf
  | .orderQueue f => f.wf
  | .orderCancel f => f.wf
  | .reportTake f => f.wf
  | .queueLowSet f => f.wf
  | .rollStatus f => f.wf
  | .spliceArm f => f.wf
  | .spliceForce f => f.wf
  | .spliceCancel f => f.wf
  | .cutRequestNextEnd f => f.formWf 1 0 0 (fun b => decide (1 < b))
  | .cutRequestForce f => f.formWf 1 0 1 (fun b => decide (1 < b))
  | .cutCancel f => f.wf
  | .presenceExpiry _ => true
  | .infeedCount _ _ => true
  | .outfeedCount _ _ => true
  | .switchPinChange _ _ => true
  | .filterExpiry _ => true
  | .estopChange _ => true
  | .feedTimeout => true
  | .tuckEnd => true
  | .pressEnd => true
  | .bladeJam => true
  | .probeSample _ _ => true
  | .regulationPeriod _ => true
  | .valveWindowStart _ => true
  | .valveClose _ => true
  | .doseSample => true
  | .speedUpdate => true
  | .probeCheckTimer => true
  | .breakTimerExpiry => true
  | .hoodTimerExpiry => true
  | .hoodDelayExpiry => true
  | .splicePulseEnd => true
  | .cutPulseEnd => true

end Sys2Proof
end

