-- ==== Sys2Proof/Tests/Slice0.lean ====
section
/-! SUPPORT. Tests on small states: the well-formedness checks refuse an ill-formed command each, a few commands do what the
worked sequences of the manual show, and every statement with hypotheses has states and operands that meet them, clause
by clause. -/

namespace Sys2Proof.Tests

open Sys2Proof.Machine Sys2Proof.Safety

/-! ### Small states -/

def toLine (p : List Byte) : Frame := ⟨.line, p, []⟩
def toPattern (p : List Byte) : Frame := ⟨.pattern, p, []⟩
def toRoll (p : List Byte) : Frame := ⟨.roll, p, []⟩

/-- The state after a command; the state itself when it stops. -/
def after (c : Instr) (s : State) : State :=
  match exec c s with
  | .next t => t
  | _ => s

/-- The answer that waits on a port. -/
def answer (p : Port) (s : State) : Status × List Byte := ((s.ports.get p).response.status, (s.ports.get p).response.payload)

def pleat : StepRec := ⟨0, 60, 15, 3, 120, 0⟩
def flatStep : StepRec := ⟨3, 60, 0, 2, 0, 0⟩
def slotTwo : Slot := ⟨.valid, 50, 50, 2, [pleat, flatStep], 1⟩
def slotLoading : Slot := ⟨.loading, 50, 50, 1, [pleat], 0⟩
def recipeOne : Recipe := ⟨true, 1100, ⟨250, 300, 0, 200⟩, 100, 3800, 4600, 1500, 900, 15, 2⟩
def order (id : Nat) : Order := ⟨id, 2, 0, 2, 0, false, false⟩
def panel (n : BitVec 16) : PanelRec :=
  { number := n, orderId := 1, pattern := 2, recipe := 0, pInStart := 0, pOutStart := 0, pInEnd := none, pOutEnd := none,
    formed := 0, clamped := 0, lateStrokes := 0, joint := false, jointUnconfirmed := false, aborted := false,
    cutThrough := false, judged := 0, doseMin := 0, doseMax := 0, peak := 0, verdict := .none, state := .forming }

/-- A stopped line with a pattern, a recipe and one order that names them. -/
def ready : State :=
  { State.reset with
    store := { State.reset.store with slots := State.reset.store.slots.set 2 slotTwo },
    dose := { State.reset.dose with recipes := State.reset.dose.recipes.set 0 recipeOne },
    queue := ⟨[order 1], false, 2, 0⟩ }

/-- The same line with the recipe in the tunnel, in a line state. -/
def heated (l : LineState) : State :=
  { ready with sup := { ready.sup with line := l }, dose := { ready.dose with tunnelRecipe := some 0 } }

/-- A former in a state with its phase timer running and panel 0 in formation, on a line in a state. -/
def forming (l : LineState) (st : FormerState) : State :=
  { heated l with
    queue := { ready.queue with active := true },
    former := { ready.former with state := st, panel := some 0, step := some 0, timer := some 5 },
    tracker := { ready.tracker with table := [panel 0], nextPanel := 1, begun := 1 } }

/-- One zone in a state. -/
def zoned (st : ZoneState) (s : State) : State := s.onZone 1 fun q => { q with state := st }

/-- A planner in a state under a known roll status. -/
def planned (st : PlannerState) (s : State) : State :=
  s.onPlanner fun p => { p with state := st, status := some ⟨0, 200000, false⟩ }

theorem jointFlags_none (s : State) (h : s.tracker.joints = []) : JointFlags s := by
  intro _ e he
  rw [h] at he
  exact absurd he (by simp)

/-! ### Well-formedness: an ill-formed command for each check -/

theorem test_wf_complete_frame_is_no_incomplete_one : Instr.wf (.incompleteFrame .line [0x01, 0]) = false := by decide
theorem test_wf_known_kind_is_no_unknown_one : Instr.wf (.unknownKindFrame 0x01 (toLine [])) = false := by decide
theorem test_wf_unknown_kind_too_long : Instr.wf (.unknownKindFrame 0x07 (toLine (List.replicate 61 0))) = false := by decide
theorem test_wf_payload_too_long :
    [Instr.nop, .eventTake, .routeSet, .floorSet, .presenceSet, .lineStart, .lineReset, .speedSet, .recipeSet, .zoneSet,
      .faultClear, .formerSet, .tunnelSet, .motionSet, .inputSet, .rollGeometrySet, .patternBegin, .patternSteps,
      .patternEnd, .patternDelete, .orderQueue, .orderCancel, .reportTake, .queueLowSet, .rollStatus, .spliceArm,
      .spliceForce, .spliceCancel, .cutCancel].all
        (fun c => !Instr.wf (c (toLine (List.replicate 61 0)))) = true := by decide
theorem test_wf_views_apart :
    [Instr.lineView, .zoneView, .formerView, .queueView, .panelView, .mapView, .spliceView].all
        (fun c => !Instr.wf (c (toLine [7, 0, 0]))) = true ∧ Instr.wf (.portView (toLine [0, 0, 0])) = false := by decide
theorem test_wf_stop_modes_apart :
    Instr.wf (.lineStopImmediate (toLine [1])) = false ∧ Instr.wf (.lineStopEndOfPanel (toLine [0])) = false := by decide
theorem test_wf_zone_rows_apart :
    let p (e a : Byte) : List Byte := [0, e, a, 8, 232, 3, 250, 0, 60, 10, 30]
    Instr.wf (.zoneDisable (toLine (p 1 0))) = false ∧ Instr.wf (.zoneArm (toLine (p 1 0))) = false ∧
      Instr.wf (.zoneEnable (toLine (p 0 0))) = false := by decide
theorem test_wf_monitor_forms_apart :
    Instr.wf (.monitorSetZone (toLine [4, 10, 0, 0, 20])) = false ∧
      Instr.wf (.monitorSetLine (toLine [0, 1, 0, 5, 5, 3])) = false := by decide
theorem test_wf_cut_rows_apart :
    Instr.wf (.cutRequestNextEnd (toRoll [1])) = false ∧ Instr.wf (.cutRequestForce (toRoll [0])) = false := by decide

/-! ### A few commands at work -/

theorem test_no_word_spells_a_command : decodeTableWord 8 0 = none := rfl
theorem test_nop : answer .line (after (.nop (toLine [1, 2])) State.reset) = (.ok, []) := by decide
theorem test_first_response : responseBytes (State.reset.ports.get .roll).response = [0x01, 0, 0] := by decide
theorem test_estop_trips : (after (.estopChange false) State.reset).sup.line = .tripped := by decide
theorem test_line_start_warms : (after (.lineStart (toLine [])) ready).sup.line = .warming := by decide
theorem test_order_queued :
    answer .pattern (after (.orderQueue (toPattern [2, 0, 5, 0])) ready) = (.ok, [2, 2]) := by decide
theorem test_speed_clamped : answer .line (after (.speedSet (toLine [200, 0])) State.reset) = (.clamped, [120, 0]) := by
  decide
theorem test_panel_starts :
    (after (.speedUpdate) ({ heated .running with pending := [] })).sup.vHeat = 0 := by decide
theorem test_tuck_then_press : (after .tuckEnd (forming .running .tuck)).former.state = .press := by decide
theorem test_feed_timeout_trips : (after .feedTimeout (forming .running .feed)).sup.tripCause = some .feedTimeout := by
  decide
theorem test_encoder_counts :
    (after (.infeedCount true false) State.reset).tracker.pIn = 1 ∧
      (after (.infeedCount false true) State.reset).tracker.pIn = 4294967295 ∧
      (after (.infeedCount true true) State.reset).tracker.pIn = 0 := by decide
theorem test_event_taken :
    answer .line (after (.eventTake (toLine [])) (after (.estopChange false) State.reset)) =
      (.ok, [0, 1, 1, 6, 1, 0, 0, 0, 0, 0, 0, 0, 1]) := by decide
theorem test_step_on_empty_queue : (match step State.reset with | .next t => t.sup.updateTimer | _ => 0) = 99 := by
  decide

/-! ### The hypotheses of the statements are met, clause by clause -/

theorem witness_StepTakesFront : ({ State.reset with pending := [.doseSample] } : State).pending = .doseSample :: [] := rfl

theorem witness_StepIdle :
    State.reset.pending = [] ∧ dueNow State.reset = [] ∧
      dueNow { State.reset with sup := { State.reset.sup with updateTimer := 0 } } ≠ [] := by decide

theorem witness_IncompleteFrame :
    (∃ k : Byte, [k] = [0x01]) ∧ (∃ k n rest, [0x10, 61] = k :: n :: rest ∧ 60 < (n : Byte).toNat) ∧
      ∃ k n rest, [0x10, 60] = k :: n :: rest ∧ (n : Byte).toNat ≤ 60 ∧ (rest : List Byte).length < n.toNat :=
  ⟨⟨0x01, rfl⟩, ⟨0x10, 61, [], rfl, by decide⟩, ⟨0x10, 60, [], rfl, by decide, by decide⟩⟩

theorem witness_UnknownKind : (0x07 : Byte) ∉ requestKinds ∧ (toLine (List.replicate 60 0)).payload.length ≤ 60 := by
  decide

theorem witness_RequestChecks :
    requestOf (.lineStart (toRoll [])) = some ⟨0x10, some .line, [0], toRoll []⟩ ∧
      (60 < (List.replicate 61 (0 : Byte)).length ∧ (List.replicate 255 (0 : Byte)).length ≤ 255) ∧
      ((toRoll []).payload.length ≤ 60 ∧ (some Port.line : Option Port) ≠ none ∧ some Port.line ≠ some (toRoll []).port) ∧
      (some Port.line = some (toLine [1]).port ∧ (toLine [1]).payload.length ∉ [0]) ∧
      (toRoll [1]).payload.length ∉ [0] := by
  simp only [List.length_replicate]
  exact ⟨rfl, by decide⟩

theorem witness_NopTaken : (toLine (List.replicate 60 0)).payload.length ≤ 60 := by decide

theorem witness_StatusRead :
    (∀ f, f = toLine [8, 0, 0] → isViewRow (.lineView f) f) ∧ 7 < (8 : Byte).toNat ∧ 3 < (4 : Byte).toNat + 256 * 0 ∧
      (3 : Byte).toNat + 256 * (0 : Byte).toNat = (3 : Fin 4).val ∧
      (∀ r ∈ State.reset.tracker.table, r.number.toNat ≠ 0) ∧
      ((forming .running .wait).tracker.table = [] ++ panel 0 :: [] ∧ (panel 0).number.toNat = 0) ∧
      (planned .idle ready).roll.planner.status ≠ none ∧ State.reset.roll.planner.status = none := by
  refine ⟨fun f _ => by simp [isViewRow], ?_⟩
  decide

theorem witness_PresenceSet :
    ([] : List Byte).length ≠ 1 ∧ (Port.line = .line ∧ (0 : Byte) = 0 ∧ (heated .running).sup.line ≠ .stopped) ∧
      ¬(Port.line = .line ∧ (0 : Byte) = 0 ∧ State.reset.sup.line ≠ .stopped) := by decide

/-- A port's timer runs. -/
def timed (p : Port) (s : State) : State := s.onPort p fun q => { q with timer := some 1 }

theorem witness_PresenceExpiry :
    ((timed .pattern State.reset).ports.get .pattern).timer ≠ none ∧ (timed .line State.reset).sup.line = .stopped ∧
      (timed .line (heated .warming)).sup.line = .warming ∧
      ((timed .line (forming .holding .retract)).sup.line = .holding ∧
        (timed .line (forming .holding .retract)).former.state ∈ [FormerState.feed, .tuck, .press, .retract]) ∧
      ((timed .roll State.reset).onCut fun k => { k with state := .waiting }).roll.cut.state = .waiting ∧
      (timed .roll ready).roll.planner.state = .idle ∧
      (timed .roll (planned .fired ready)).roll.planner.state = .fired ∧
      (timed .roll (planned .approach ready)).roll.planner.state = .approach ∧ JointFlags (timed .roll ready) :=
  ⟨by decide, rfl, rfl, by decide, rfl, rfl, rfl, rfl, jointFlags_none _ rfl⟩

theorem witness_Occurrences : ∀ p, (State.reset.router.get p).records.length = 20 := by intro p; cases p <;> decide

theorem witness_EventTake :
    ([0] : List Byte) ≠ [] ∧
    (∀ e ∈ (State.reset.router.get .line).records, e.flag = false) ∧
      (let rs := ((after (.estopChange false) State.reset).router.get .line).records
       rs[0]?.map EventRecord.flag = some true ∧ rs[1]?.map EventRecord.flag = some true ∧
         ∀ e' ∈ rs, e'.flag = true → e'.level < 1 ∨ e'.level = 1) := by decide

theorem witness_RouteSet :
    (List.replicate 60 (0 : Byte)).length ≠ 2 ∧ 19 < (20 : Byte).toNat ∧ 3 < (4 : Byte).toNat ∧
      (19 : Byte).toNat ≤ 19 ∧ (3 : Byte).toNat ≤ 3 ∧
      (State.reset.router.get .line).records[19]? = some ⟨1, false, 0, List.replicate 8 0⟩ := by decide

theorem witness_FloorSet :
    (toLine []).payload.length ≠ 1 ∧ 3 < (4 : Byte).toNat ∧ (toLine [3]).payload = [3] ∧ (3 : Byte).toNat ≤ 3 := by decide

theorem witness_PatternBegin :
    (toPattern []).payload.length ≠ 6 ∧ 15 < (16 : Byte).toNat ∧ 64 < (65 : Byte).toNat ∧ (64 : Byte).toNat ≤ 64 ∧
      ({ ready.store with load := some 3 } : Store).load = some 3 ∧ (3 : Fin 16) ≠ 15 ∧ 0 < (slotAt ready 2).refs ∧
      ready.store.load = none ∧ (slotAt ready 15).refs = 0 ∧ ready.store.slots.length = 16 := by decide

/-- A pattern being loaded into slot 3. -/
def loading : State :=
  { ready with store := { ready.store with slots := ready.store.slots.set 3 slotLoading, load := some 3 } }

theorem witness_PatternSteps :
    (List.replicate 10 (0 : Byte)).length ∉ [9, 18, 27, 36, 45, 54] ∧
      (List.replicate 54 (0 : Byte)).length ∈ [9, 18, 27, 36, 45, 54] ∧ ready.store.load = none ∧
      loading.store.load = some 3 ∧ loading.store.slots[3]? = some slotLoading ∧
      slotLoading.stepCount < slotLoading.steps.length + 1 ∧ { slotLoading with stepCount := 2 }.stepCount = 2 ∧
      ([] : List Byte).length % 9 = 0 := by decide

theorem witness_PatternEnd :
    (toPattern [0]).payload ≠ [] ∧ loading.store.slots[3]? = some slotLoading ∧
      (∀ j, j < slotLoading.stepCount → ∃ r, slotLoading.steps[j]? = some r ∧ ∀ c, ¬failsAt r c) ∧
      (slotTwo.steps[1]? = some flatStep ∧ ({ slotTwo with steps := [pleat] } : Slot).steps[1]? = none) ∧
      failsAt { pleat with width := 19 } 2 ∧ ∀ d, d < 2 → ¬failsAt { pleat with width := 19 } d := by
  have good : ∀ c, ¬failsAt pleat c := by
    intro c
    match c with
    | 0 => simp [failsAt]
    | 1 => simp [failsAt, pleat]
    | 2 => simp [failsAt, pleat]
    | 3 => simp [failsAt, pleat]
    | 4 => simp [failsAt, pleat]
    | 5 => simp [failsAt, pleat]
    | 6 => simp [failsAt, pleat]
    | n + 7 => simp [failsAt]
  refine ⟨by decide, by decide, ?_, by decide, Or.inl (by decide), ?_⟩
  · intro j hj
    match j, hj with
    | 0, _ => exact ⟨pleat, rfl, good⟩
  · intro d hd
    match d, hd with
    | 0, _ => simp [failsAt]
    | 1, _ => simp [failsAt, pleat]

theorem witness_PatternDelete :
    15 < (16 : Byte).toNat ∧ ready.store.slots[15]?.map Slot.state = some .empty ∧ slotTwo.state = .valid ∧
      0 < slotTwo.refs ∧ ({ slotTwo with refs := 0 } : Slot).refs = 0 ∧ slotLoading.state = .loading ∧
      loading.store.slots[3]? = some slotLoading := by decide

theorem references_ready : References ready := by unfold References; decide
theorem orders_ready : Orders ready := by unfold Orders; decide

theorem witness_ReferencedSlotKept :
    References ready ∧ (∃ t, exec .doseSample ready = .next t) ∧ ready.store.slots[2]? = some slotTwo ∧
      0 < slotTwo.refs := ⟨references_ready, ⟨_, rfl⟩, by decide, by decide⟩

/-- A run queue of eight orders. -/
def crowded : State := { ready with queue := ⟨[1, 2, 3, 4, 5, 6, 7, 255].map order, false, 2, 0⟩ }

theorem witness_OrderQueue :
    15 < (16 : Byte).toNat ∧ 3 < (4 : Byte).toNat ∧ 8 ≤ crowded.queue.orders.length ∧
      (slotAt ready 15).state ≠ .valid ∧ (ready.dose.recipes.get 3).valid = false ∧
      (ready.queue.orders.length < 8 ∧ (slotAt ready 2).state = .valid ∧ (ready.dose.recipes.get 0).valid = true ∧
        ready.roll.planner.state ≠ .planning ∧ ready.roll.planner.state ≠ .scheduled ∧
        heldAtBoundary ready.former = false ∧ ready.store.slots.length = 16) ∧
      Orders ready ∧ JointFlags ready :=
  ⟨by decide, by decide, by decide, by decide, by decide, by decide, orders_ready, jointFlags_none _ rfl⟩

/-- A line held STARVED with nothing else against it. -/
def starving : State :=
  let s := heated .holding
  { s with
    queue := ⟨[], false, 2, 0⟩, former := { s.former with state := .held, hold := .starved },
    sup := { s.sup with hood := .down, hoodDown := true, causes := ⟨true, false, false⟩ } }

theorem test_order_ends_a_starved_hold :
    (after (.orderQueue (toPattern [2, 0, 5, 0])) starving).sup.line = .running ∧
      (after (.orderQueue (toPattern [2, 0, 5, 0])) starving).former.state = .lead := by decide

theorem witness_OrderQueue_starved :
    (starving.former.state = .held ∧ starving.former.hold = .starved ∧ starving.former.resume = none ∧
        starving.former.panel = none ∧ starving.queue.orders = [] ∧ starving.sup.line = .holding ∧
        starving.sup.hood = .down ∧ starving.sup.causes = ⟨true, false, false⟩ ∧ starving.dose.tunnelRecipe = some 0 ∧
        starving.tracker.table.length < 32 ∧ starving.tracker.map.length ≤ 60 ∧ starving.store.slots.length = 16) ∧
      (slotAt starving 2).state = .valid ∧ (starving.dose.recipes.get 0).valid = true ∧
      lengthRuns (countOf starving.former slotTwo.lead) ∧
      ((planned .planning ready).roll.planner.status ≠ none ∧ (planned .scheduled ready).former.state ≠ .bridge) ∧
      Orders starving := by
  refine ⟨⟨rfl, rfl, rfl, rfl, rfl, rfl, rfl, rfl, rfl, by decide, by decide, by decide⟩, by decide, by decide, ?_,
    by decide, by unfold Orders; decide⟩
  unfold lengthRuns
  decide

theorem witness_OrderCancel :
    (∀ o ∈ ready.queue.orders, o.id ≠ 2) ∧ crowded.queue.orders = [1, 2].map order ++ order 3 :: [4, 5, 6, 7, 255].map order ∧
      (∀ x ∈ [1, 2].map order, x.id ≠ (order 3).id) ∧ ({ order 1 with frozen := true } : Order).frozen = true ∧
      ((forming .running .wait).queue.active = true ∧ (forming .running .wait).queue.orders = [] ++ order 1 :: []) ∧
      (order 1).frozen = false ∧ ({ order 1 with cancel := true } : Order).cancel = true ∧
      (forming .running .wait).former.panel ≠ none ∧ ready.former.panel = none ∧
      heldAtBoundary ready.former = false ∧ JointFlags crowded := by
  refine ⟨by decide, by decide, by decide, rfl, by decide, rfl, rfl, by decide, rfl, by decide, jointFlags_none _ rfl⟩

theorem witness_QueueLowSet : 7 < (8 : Byte).toNat ∧ (7 : Byte).toNat ≤ 7 := by decide

/-- Panel 0's report waits to be taken, and panel 1 waits for a place. -/
def reported : State :=
  { ready with tracker := { ready.tracker with reports := [panel 0], table := [{ panel 1 with state := .waitingReport }] } }

theorem witness_ReportTake :
    State.reset.tracker.reports = [] ∧ reported.tracker.reports = panel 0 :: [] ∧ ([] : List PanelRec).length < 16 ∧
      (reported.tracker.table = [] ++ { panel 1 with state := .waitingReport } :: []) ∧
      (∀ q ∈ ([] : List PanelRec), q.state ≠ .waitingReport ∧ q.number ≠ 1) ∧
      (∀ w ∈ ({ reported.tracker with table := [] } : Tracker).table, w.state ≠ .waitingReport) ∧
      heldAtBoundary reported.former = false ∧ reported.dose.pendingRecipe = none ∧ JointFlags reported :=
  ⟨rfl, rfl, by decide, rfl, by decide, by decide, rfl, rfl, jointFlags_none _ rfl⟩

/-- FORMER_SET at the least of each range, and the same with a retract timeout below the allowance. -/
def formerLeast : List Byte := [1, 10, 0, 10, 0, 50, 0, 1, 0, 1, 0, 1, 0, 1, 0]
def formerBad : List Byte := [1, 10, 0, 100, 0, 50, 0, 1, 0, 1, 0, 1, 0, 1, 0]
/-- FORMER_SET with another scale. -/
def formerScaled : List Byte := [255, 244, 1, 232, 3, 136, 19, 2, 0, 3, 0, 1, 0, 2, 0]

theorem witness_FormerSet :
    formerSettingsOk (formerSettingsOf formerLeast) = true ∧ formerSettingsOk (formerSettingsOf formerBad) = false ∧
      formerSettingsOk (formerSettingsOf formerScaled) = true ∧
      sameScales (formerSettingsOf formerScaled) ready.former.set = false ∧
      ({ ready.former with cIn := 1 } : Former).cIn ≠ 0 ∧ (ready.former.cIn = 0 ∧ ready.former.cOut = 0) ∧
      Bare ready ∧ ¬Bare (heated .running) :=
  ⟨by decide, by decide, by decide, by decide, by decide, by decide, ⟨rfl, rfl, rfl⟩, fun h => absurd h.1 (by decide)⟩

/-- TUNNEL_SET at a geometry that ends at the knife: 6,000 + 17 × 2,000 = 40,000; and one count beyond it. -/
def tunnelFull : List Byte := [16, 208, 7, 112, 23, 0, 0, 4, 8, 16]
def tunnelBeyond : List Byte := [16, 208, 7, 113, 23, 0, 0, 4, 8, 16]

theorem witness_TunnelSet :
    tunnelFull.length = 10 ∧ tunnelSettingsOk (tunnelSettingsOf tunnelFull) ready.roll.geo.lK = true ∧
      tunnelSettingsOk (tunnelSettingsOf tunnelBeyond) ready.roll.geo.lK = false ∧ Bare ready :=
  ⟨by decide, by decide, by decide, ⟨rfl, rfl, rfl⟩⟩

/-- ROLL_GEOMETRY_SET with the default settings, and with L_sf no more than L_df. -/
def geometryDefault : List Byte :=
  bytes4 20000 ++ bytes4 40000 ++ bytes4 800 ++ bytes4 2000 ++ bytes4 6000 ++ bytes4 1500 ++ bytes4 300 ++
    bytes4 15000 ++ bytes4 100000 ++ bytes4 40000 ++ bytes4 1000 ++ bytes2 40 ++ byte1 20 ++ byte1 10
def geometryBad : List Byte := bytes4 20000 ++ bytes4 20000 ++ geometryDefault.drop 8

theorem witness_RollGeometrySet :
    geometryDefault.length = 48 ∧ geometryOk (geometryOf geometryDefault) ready.dose.tunnel = true ∧
      geometryOk (geometryOf geometryBad) ready.dose.tunnel = false ∧ rollIdle ready = true ∧
      rollIdle (planned .planning ready) = false := by decide

theorem witness_MotionAndSpeedSet :
    motionSettingsOk [1, 0, 1, 0, 30, 255, 0] (motionSettingsOf [1, 0, 1, 0, 30, 255, 0]) = true ∧
      motionSettingsOk [1, 0, 1, 0, 30, 255, 1] (motionSettingsOf [1, 0, 1, 0, 30, 255, 1]) = false ∧
      (ready.sup.line = .stopped ∧ 1 ≠ ready.sup.set.vMax) ∧
      ((heated .running).sup.line ≠ .stopped ∧ (heated .running).sup.line ≠ .tripped) ∧
      (120 : Byte).toNat + 256 * (0 : Byte).toNat ≤ ready.sup.set.vMax ∧
      ready.sup.set.vMax < (121 : Byte).toNat + 256 * (0 : Byte).toNat := by decide

theorem witness_InputSet :
    inputSettingsOk [15, 15, 15, 15, 31, 3] = true ∧ inputSettingsOk [16, 0, 0, 0, 0, 0] = false ∧
      sameWiring (inputSettingsOf [15, 15, 15, 15, 31, 3]) ready.tracker.set = false ∧
      sameWiring (inputSettingsOf [0, 0, 0, 0, 15, 0]) ready.tracker.set = true ∧
      (ready.pins.estop == (inputSettingsOf [0, 0, 0, 0, 15, 0]).estopPol) = ready.monitor.estop ∧ Bare ready ∧
      JointFlags ready :=
  ⟨by decide, by decide, by decide, by decide, by decide, ⟨rfl, rfl, rfl⟩, jointFlags_none _ rfl⟩

/-- RECIPE_SET at the limits of its ranges, and with T_scorch no more than T_base plus the largest increment. -/
def recipeEdge (i : Byte) : List Byte :=
  [i, 1] ++ bytes2 500 ++ bytes2 1000 ++ bytes2 0 ++ bytes2 1000 ++ bytes2 1 ++ bytes2 1 ++ bytes3 16777214 ++
    bytes3 16777215 ++ bytes2 1501 ++ bytes2 499 ++ [1, 255]

theorem witness_RecipeSet :
    (recipeEdge 3).length = 26 ∧ recipeOk (recipeOf (recipeEdge 3)) = true ∧
      recipeOk (recipeOf ((recipeEdge 3).set 20 220)) = false ∧ 3 < field (recipeEdge 4) 0 1 ∧
      recipeInUse ready 0 = true ∧ recipeInUse ready 3 = false ∧ field ((recipeEdge 3).set 1 0) 1 1 = 0 ∧
      recipeInUse (heated .stopped) 0 = true := by decide

theorem witness_LineStart :
    ((heated .running).sup.line ≠ .stopped ∧ State.reset.queue.orders = []) ∧
      (zoned .tripped ready).zones.z1.state = .tripped ∧
      (ready.sup.line = .stopped ∧ ready.queue.orders = order 1 :: [] ∧ ready.former.retractAfterTrip = false ∧
        ready.monitor.estop = false ∧
        (∀ z, (ready.zones.get z).state ≠ .tripped ∧ (ready.zones.get z).state ≠ .probeFault)) ∧
      tunnelHoldsPanel ready = false ∧
      ((ready.dose.recipes.get 0).inc.get 1 ≠ 0 ∧ (ready.zones.get 1).settle < (ready.dose.recipes.get 0).settle) := by
  decide

theorem witness_LineStop :
    1 < (2 : Byte).toNat ∧ ready.sup.line = .stopped ∧ (heated .stopping).sup.line = .stopping ∧
      ((forming .running .feed).sup.line = .running ∧ (forming .running .feed).former.panel ≠ none) ∧
      (heated .warming).sup.line = .warming ∧
      ((heated .holding).sup.line = .holding ∧ (heated .holding).former.panel = none ∧
        (heated .holding).former.state ≠ .bridge ∧ (heated .holding).former.state ≠ .held) ∧
      (forming .running .feed).former.state ∈ [FormerState.feed, .tuck, .press, .retract] := by decide

theorem witness_LineReset :
    (heated .running).sup.line ≠ .stopped ∧ (heated .running).sup.line ≠ .tripped ∧ ready.sup.line = .stopped := by
  decide

/-- A running line at its full heat with the hood down. -/
def rolling : State :=
  let s := heated .running
  { s with zones := s.zones.map fun q => { q with measured := 1400 }, sup := { s.sup with hood := .down, hoodDown := true } }

theorem witness_SpeedUpdate :
    (rolling.sup.vReq ≤ 65535 ∧ rolling.sup.set.vMax ≤ 65535) ∧
      ((heated .lowering).sup.line ≠ .running ∧ (heated .lowering).sup.line ≠ .holding ∧
        (heated .lowering).sup.line ≠ .warming) ∧
      (rolling.sup.line = .running ∧ rolling.sup.hood = .down ∧ rolling.sup.causes = ⟨false, false, false⟩ ∧
        (IsHeatLimit rolling (heatLimit rolling) ∧ 0 < heatLimit rolling) ∧ rolling.former.state ≠ .bridge) :=
  ⟨by decide, by decide, rfl, rfl, rfl, ⟨heatLimit_least _, by decide⟩, by decide⟩

theorem witness_Trips :
    State.reset.monitor.estop = false ∧
      ((forming .running .feed).former.state = .feed ∧ (forming .running .feed).former.timer ≠ none) ∧
      ((forming .running .retract).former.state = .retract ∧ (forming .running .retract).former.timer ≠ none) ∧
      ({ ready.monitor with breakTimer := some 1 } : Monitor).breakTimer ≠ none ∧ ready.sup.hoodTimer ≠ none ∧
      ready.sup.line ≠ .tripped ∧ (heated .tripped).sup.line = .tripped := by decide

/-- Panel 0 in FEED, its order cancelled; and a bridge held by a stop. -/
def cancelled : State := { forming .running .feed with queue := ⟨[{ order 1 with cancel := true }], true, 2, 0⟩ }
def bridging : State :=
  (heated .running).onFormer fun f => { f with state := .bridge, bridgeTarget := some 0 }

theorem test_trip_retires_a_cancelled_order :
    (after .feedTimeout cancelled).queue.orders = [] ∧
      (after .feedTimeout cancelled).tracker.map = [⟨.panelEnd, 0, some 0⟩] := by decide
theorem test_trip_ends_a_bridge :
    (after (.estopChange false) bridging).tracker.map = [⟨.bridgeEnd, 0, none⟩] ∧
      (after (.estopChange false) bridging).former.state = .idle := by decide

theorem witness_Trips_ends :
    ((true == State.reset.tracker.set.estopPol) = false ∧ JointFlags State.reset) ∧
      (AbortRetires cancelled { order 1 with cancel := true } [] ∧
        ∀ o os, ¬AbortRetires (forming .running .feed) o os) ∧
      Bridging bridging.former ∧ ¬Bridging cancelled.former ∧
      Armed (planned .scheduled ready).roll.planner ∧ ¬Armed (planned .fired ready).roll.planner := by
  refine ⟨⟨by decide, jointFlags_none _ rfl⟩, ⟨⟨by decide, rfl, rfl⟩, fun o os h => ?_⟩, by decide, by decide, by decide,
    by decide⟩
  obtain ⟨_, hq, hc⟩ := h
  cases hq
  cases hc

/-- ZONE_SET at the limits of its ranges. -/
def zoneEdge (enable arm : Byte) : List Byte := [3, enable, arm, 255] ++ bytes2 1000 ++ bytes2 1000 ++ [1, 60, 120]

theorem witness_ZoneSet :
    (zoneEdge 2 1).length = 11 ∧ zoneRequestOk (zoneEdge 2 1) = true ∧ zoneRequestOk (zoneEdge 3 1) = false ∧
      field (zoneEdge 0 0) 0 1 = (3 : Fin 4).val ∧ field (zoneEdge 0 0) 1 1 = 0 ∧
      (zoned .regulating ready).zones.z1.state ≠ .off ∧ (ready.zones.get 3).state = .off := by decide

theorem witness_MonitorSet :
    (4 < field [5, 0, 0, 0, 0] 0 1 ∧ [5, 0, 0, 0, 0].length = 5) ∧ field [3, 0, 0, 0, 0] 0 1 ≤ 3 ∧
      field [4, 0, 0, 0, 0, 0] 0 1 = 4 ∧ 4 < field [3, 5, 0, 0, 0, 1] 1 1 ∧
      monitorZoneOk ([3, 4] ++ bytes2 2500 ++ [60, 15]) = true ∧
      field [3, 4] 1 1 = monitorModeCode .target ∧ field [3, 4] 0 1 = (3 : Fin 4).val ∧
      (1 ≤ field [4, 9, 0, 0, 1] 1 1 ∧ field [4, 9, 0, 0, 1] 1 1 ≤ 9) ∧
      (field [4, 0, 0, 0, 1] 1 1 = 0 ∧ 1 ≤ field [4, 0, 0, 0, 1] 4 1) ∧ 10 ≤ field [4, 10, 0, 0, 255] 1 1 := by decide

theorem witness_FaultClear :
    ({ (heated .tripped).monitor with estop := true } : Monitor).estop = true ∧ (heated .running).sup.line ≠ .tripped ∧
      ((heated .tripped).sup.line = .tripped ∧ (heated .tripped).monitor.estop = false ∧
        (heated .tripped).former.state ≠ .bridge) := by decide

/-- Zone 1 regulates hot under a monitor of a mode. -/
def watched (m : MonitorMode) (set : Nat) : State :=
  ((zoned .regulating (heated .running)).onZone 1 fun q => { q with measured := 2000 }).onZoneMonitor 1 fun k =>
    { k with mode := m, tLimit := 1999, deglitchSet := set }

theorem witness_ProbeSample :
    (ready.monitor.zones.get 1).mode = .off ∧
      ((watched .warn 2).monitor.zones.z1.mode ≠ .off ∧ (watched .warn 2).zones.z1.state = .regulating ∧
        (watched .warn 2).monitor.zones.z1.blank = 0 ∧
        (watched .warn 2).monitor.zones.z1.tLimit < min 2500 2000) ∧
      (watched .warn 2).monitor.zones.z1.deglitch + 1 < (watched .warn 2).monitor.zones.z1.deglitchSet ∧
      ((watched .warn 1).monitor.zones.z1.deglitchSet ≤ (watched .warn 1).monitor.zones.z1.deglitch + 1 ∧
        (watched .warn 1).monitor.zones.z1.acted = false ∧ (watched .warn 1).monitor.zones.z1.mode = .warn) ∧
      (watched .latch 1).monitor.zones.z1.mode ≠ .warn ∧
      ({ ready.monitor with test := some 1 } : Monitor).test = some 1 := by decide

theorem witness_ProbeSample_acts :
    (watched .retry 1).monitor.zones.z1.acted = false ∧ (watched .retry 1).monitor.zones.z1.mode = .retry ∧
      (watched .latch 1).monitor.zones.z1.mode = .latch ∧ (watched .target 1).monitor.zones.z1.mode = .target ∧
      (watched .target 1).sup.line ≠ .warming := by decide

/-- Zone 1 in a state, with counts one below their ends, and its target. -/
def counted (st : ZoneState) (target measured : Nat) : State :=
  (zoned st (heated .running)).onZone 1 fun q =>
    { q with target := target, measured := measured, soft := 59, purge := 29, hi := 9, gain := 16 }

theorem witness_RegulationPeriod :
    ready.monitor.test ≠ some 1 ∧ (ready.zones.get 1).state = .off ∧
      ((zoned .tripped ready).zones.z1.state = .tripped ∧ (ready.monitor.zones.get 1).hold ≠ .retry) ∧
      ((zoned .purge ready).zones.z1.purge + 1 < (zoned .purge ready).zones.z1.purgeTime) ∧
      ((counted .purge 0 0).zones.z1.purgeTime ≤ (counted .purge 0 0).zones.z1.purge + 1) ∧
      ready.dose.tunnelRecipe = none ∧ (heated .running).dose.tunnelRecipe = some 0 ∧
      ((counted .regulating 1000 1016).zones.z1.target + recipeOne.band < (counted .regulating 1000 1016).zones.z1.measured ∧
        nextDuty (counted .regulating 1000 1016).zones.z1.dutyMax (counted .regulating 1000 1016).zones.z1 = 0 ∧
        (counted .regulating 1000 1016).zones.z1.purgeDelay ≤ (counted .regulating 1000 1016).zones.z1.hi + 1) ∧
      ¬(counted .regulating 1000 1015).zones.z1.target + recipeOne.band < (counted .regulating 1000 1015).zones.z1.measured ∧
      ((zoned .soft (heated .running)).zones.z1.soft + 1 < (zoned .soft (heated .running)).zones.z1.softTime) ∧
      ((counted .soft 1000 900).zones.z1.softTime ≤ (counted .soft 1000 900).zones.z1.soft + 1) ∧
      ({ (ready.monitor.zones.get 1) with hold := .retry } : ZoneMonitor).hold = .retry ∧
      (ready.zones.get 1).measured ≤ (ready.monitor.zones.get 1).tLimit - tunnelBand ready ∧
      ({ ready.monitor with test := some 1, testPeriods := 1, testLatest := some 2550 } : Monitor).testLatest = some 2550 ∧
      ({ ready.monitor with test := some 1 } : Monitor).testPeriods = 0 := by decide

/-- Every zone regulates in band, one period short of the settle count. -/
def settling : State :=
  zonesInOrder.foldl (fun s z => s.onZone z fun q =>
    { q with state := .regulating, target := 1000, measured := 1000, settle := if z = 1 then 1 else 2 }) (heated .running)

theorem test_zones_settle :
    settling.settledReported = false ∧ (after (.regulationPeriod 1) settling).settledReported = true := by decide

theorem witness_RegulationPeriod_settled :
    (settling.sup.line ≠ .warming ∧ settling.former.state ≠ .bridge) ∧
      (settling.dose.tunnelRecipe = some 0 ∧ settling.zones.z1.state = .regulating ∧ settling.zones.z1.blank ≤ 1 ∧
        settling.zones.z1.measured ≤ settling.zones.z1.target + recipeOne.band ∧
        settling.zones.z1.target ≤ settling.zones.z1.measured + recipeOne.band) ∧
      (settling.monitor.test ≠ some 1 ∧ ready.zones.z1.state ≠ .purge) := by decide

theorem witness_DoseSample :
    ready.dose.tunnelRecipe = none ∧ rolling.sup.hood ≠ .up ∧ rolling.dose.tunnelRecipe = some 0 ∧
      rolling.dose.cells[31]? = some none ∧ zoneOfCell rolling.dose.tunnel 7 = 0 ∧ zoneOfCell rolling.dose.tunnel 8 = 1 ∧
      zoneOfCell rolling.dose.tunnel 31 = 3 ∧
      ({ rolling.dose with cells := [some ⟨0, 0, 0, false⟩] } : Dose).cells[0]? = some (some ⟨0, 0, 0, false⟩) ∧
      (zoned .probeFault rolling).zones.z1.state = .probeFault := by decide

theorem witness_RollStatusRequest :
    (2147483647 < field (bytes4 2147483648) 0 4 ∧ field (bytes4 2147483647) 0 4 ≤ 2147483647) ∧
      (planned .fired ready).roll.planner.state = .fired ∧ (planned .approach ready).roll.planner.state ≠ .fired ∧
      ready.roll.planner.state = .idle ∧ field (bytes4 99999) 0 4 < ready.roll.geo.low ∧ JointFlags ready :=
  ⟨by decide, by decide, by decide, by decide, by decide, jointFlags_none _ rfl⟩

/-- A roll known and a geometry that lets the splice lie in the flat steps of the pattern. -/
def spliceable : State :=
  (planned .idle ready).onGeo fun g => { g with c := 100, j := 10, a := 0, lSf := 0, lDf := 0 }

theorem test_arm_schedules :
    answer .roll (after (.spliceArm (toRoll [])) (planned .idle ready)) = (.accepted, [1]) ∧
      ((after (.spliceArm (toRoll [])) { spliceable with dose := (heated .stopped).dose }).roll.planner.stretch.map
        fun x => (x.s, x.e)) = some (320, some 540) := by decide

theorem witness_SpliceRequests_search :
    (searchResult spliceable ⟨0, 200000, false⟩).2 = none ∧
      (searchResult { spliceable with dose := (heated .stopped).dose } ⟨0, 200000, false⟩).2.isSome = true ∧
      JointFlags spliceable ∧ (planned .planning ready).former.state ≠ .bridge :=
  ⟨by decide, by decide, jointFlags_none _ rfl, by decide⟩

theorem witness_SpliceRequests :
    (planned .planning ready).roll.planner.state ≠ .idle ∧
      (ready.roll.planner.state = .idle ∧ ready.roll.planner.status = none) ∧
      ((planned .idle ready).roll.planner.state = .idle ∧ (planned .idle ready).sup.line ≠ .tripped ∧
        (planned .idle ready).roll.planner.status ≠ none) ∧
      (planned .approach ready).roll.planner.state = .approach ∧
      ((planned .scheduled (heated .tripped)).roll.planner.state ≠ .fired ∧
        (planned .scheduled (heated .tripped)).sup.line = .tripped) ∧
      (planned .fired ready).roll.planner.state = .fired ∧ ready.roll.planner.firedSinceArm = false ∧
      ({ ready.roll.planner with firedSinceArm := true } : Planner).firedSinceArm = true := by decide

/-- The web map holds a panel's end, a gap and the next panel's start. -/
def gapped (gap : Pos) : State :=
  { ready with tracker := { ready.tracker with
    map := [⟨.panelStart, 0, some 0⟩, ⟨.panelEnd, 100, some 0⟩, ⟨.joint, 100, none⟩, ⟨.panelStart, 100 + gap, some 1⟩],
    pOut := 40000, table := [panel 0, panel 1] } }

theorem witness_CutRequests :
    1 < (2 : Byte).toNat ∧ ({ ready.roll.cut with state := .fired } : Cut).state ≠ .idle ∧
      (∀ x ∈ ready.tracker.map, x.kind ≠ .panelEnd) ∧
      ((gapped 10).tracker.map = [⟨.panelStart, 0, some 0⟩] ++ ⟨.panelEnd, 100, some 0⟩ ::
          [⟨.joint, 100, none⟩, ⟨.panelStart, 110, some 1⟩] ∧
        (∀ x ∈ [(⟨.panelStart, 0, some 0⟩ : Mark)], x.kind ≠ .panelEnd)) ∧
      (∀ x ∈ [(⟨.joint, 100, none⟩ : Mark)], x.kind ≠ .panelStart) ∧
      (((1100 : Pos) - 100).toInt = ready.roll.geo.cutOffset ∧ ((1099 : Pos) - 100).toInt < ready.roll.geo.cutOffset ∧
        ((99 : Pos) - 100).toInt = -1) ∧
      ready.roll.cut.state ≠ .fired ∧ (∀ r ∈ ready.tracker.table, covers 0 r = false) ∧
      ((gapped 10).tracker.table = [] ++ panel 0 :: [panel 1] ∧
        covers ((gapped 10).tracker.pOut - 40000) (panel 0) = true ∧ (panel 1).number ≠ (panel 0).number) ∧
      ({ ready.roll.cut with state := .waiting } : Cut).state = .waiting ∧
      ({ ready.roll.cut with fired := true } : Cut).fired = true := by decide

theorem rests_idle {s : State} (h : s.former.state = .idle) : FormerRests s := by unfold FormerRests; rw [h]; trivial

/-- The state at an infeed position, and at an outfeed position. -/
def atIn (p : Pos) (s : State) : State := { s with tracker := { s.tracker with pIn := p } }
def atOut (p : Pos) (s : State) : State := { s with tracker := { s.tracker with pOut := p } }

/-- The former's lengths end at infeed position 1; in FLAT it makes a repeat of the flat step. -/
def lengthTo (st : FormerState) (step : Option Nat) (rep : Nat) : State :=
  (forming .running st).onFormer fun f => { f with target := 1, step := step, rep := rep }

theorem witness_InfeedCount :
    ((true ≠ State.reset.pins.infeedA ∧ false = State.reset.pins.infeedB) ∧
        ¬(true ≠ State.reset.pins.infeedA ∧ true = State.reset.pins.infeedB)) ∧
      countsForward false false false true false = true ∧
      (ready.roll.planner.state = .idle ∧ ready.roll.planner.status = none ∧ ready.roll.planner.jointDue = none ∧
        ready.tracker.joints = [] ∧ ready.former.state = .idle) ∧
      ((lengthTo .feed (some 0) 0).former.state = .feed ∧ (lengthTo .feed (some 0) 0).former.target = 1) := by
  decide

theorem witness_InfeedCount_lengths :
    (reached 1 (lengthTo .lead none 0).former.target = true ∧ stepRuns 0 (atIn 1 (lengthTo .lead none 0))) ∧
      ((lengthTo .flat (some 1) 0).former.step = some 1 ∧
        (patternAhead (lengthTo .flat (some 1) 0)).steps[1]? = some flatStep ∧ 0 + 1 < flatStep.rep ∧
        lengthRuns (countOf (lengthTo .flat (some 1) 0).former flatStep.width)) ∧
      (flatStep.rep ≤ (lengthTo .flat (some 1) 1).former.rep + 1 ∧
        stepRuns 2 (atIn 1 (lengthTo .flat (some 1) 1))) ∧
      ((lengthTo .tail none 0).former.panel = some 0 ∧ panel 0 ∈ (lengthTo .tail none 0).tracker.table ∧
        (lengthTo .tail none 0).queue.orders = order 1 :: [] ∧ (lengthTo .tail none 0).sup.line = .running) := by
  refine ⟨⟨by decide, ?_⟩, ⟨rfl, rfl, by decide, by unfold lengthRuns; decide⟩, ⟨by decide, ?_⟩, by decide⟩
  · show strokeCount _ _ _ < 2 ^ 31
    decide
  · show lengthRuns (countOf _ _)
    unfold lengthRuns
    decide

theorem witness_InfeedCount_splice :
    (reached 1 ((6001 : Pos) - 6000) = true ∧ reached 1 6001 = false) ∧
      (reached 1 ((1 : Pos) - 6000) = true ∧ reached 1 1 = true ∧ Machine.after 1 (1 + 40000 - 20000 + 1500) = false) ∧
      (ready.roll.geo.a = 6000 ∧ ready.roll.geo.lSf = 40000 ∧ ready.roll.geo.lDf = 20000 ∧
        ready.roll.geo.wDet = 1500) ∧
      (Machine.after 1 ((0 - 1500 : Pos) + 1500) = true ∧ reached 1 ((0 - 1500 : Pos) + 20000) = false ∧
        reached 1 ((0 - 1500 : Pos) + 20800) = false) ∧
      (planned .scheduled ready).roll.planner.status = some ⟨0, 200000, false⟩ ∧
      (reached 1 (runsOutAt ⟨0, 200000, false⟩) = false ∧ (runsOutAt ⟨0, 100000, false⟩ - 1).toNat < 100000 ∧
        reached 1 (runsOutAt ⟨0, 100000, false⟩) = false) ∧
      (reached 1 (runsOutAt ⟨0, 1, false⟩) = true ∧ reached 1 2 = false ∧ (planned .planning ready).sup.line ≠ .tripped ∧
        0 < ready.roll.geo.a ∧ ready.roll.geo.a < 2 ^ 31) ∧
      FormerRests (atIn 1 (planned .fired ready)) := by
  exact ⟨by decide, by decide, by decide, by decide, rfl, by decide, by decide, rests_idle rfl⟩

/-- TAIL ends the last panel of the only order, of one with another recipe behind it, and of one with more to come. -/
def ending (orders : List Order) : State :=
  { lengthTo .tail none 0 with queue := ⟨orders, true, 2, 0⟩ }
def lastPanel : Order := { order 1 with count := 1 }
def otherRecipe : Order := { order 2 with recipe := 1 }
/-- A bridge that waits only for the joint due, whose span ends at infeed position 1. -/
def waitingBridge : State :=
  { bridging with
    settledReported := true,
    roll := { bridging.roll with planner := { bridging.roll.planner with jointDue := some (1 - 20800) } } }

theorem test_tail_end_leads_on :
    (after (.infeedCount true false) (ending [lastPanel])).sup.line = .holding ∧
      (after (.infeedCount true false) (ending [lastPanel, otherRecipe])).former.state = .bridge ∧
      (after (.infeedCount true false) (ending [order 1])).former.state = .lead ∧
      (after (.infeedCount true false) waitingBridge).former.state = .lead := by decide

theorem witness_InfeedCount_boundary :
    (ending [lastPanel]).sup.causes = ⟨false, false, false⟩ ∧ (ending [lastPanel]).sup.stopPending = false ∧
      (panelEnded 0 (atIn 1 (ending [lastPanel]))).queue.orders = [] ∧
      ((panelEnded 0 (atIn 1 (ending [lastPanel, otherRecipe]))).queue.orders = [otherRecipe] ∧
        otherRecipe.recipe ≠ 0 ∧ 2 ≤ 64 - (panelEnded 0 (atIn 1 (ending []))).tracker.map.length ∧
        ¬tunnelDrained (panelEnded 0 (atIn 1 (ending [lastPanel, otherRecipe])))) ∧
      lengthRuns (countOf (ending [order 1]).former slotTwo.lead) ∧
      (waitingBridge.former.state = .bridge ∧ waitingBridge.former.bridgeTarget = some 0 ∧
        waitingBridge.dose.tunnelRecipe = some 0 ∧ waitingBridge.settledReported = true ∧
        reached 1 ((1 - 20800 : Pos) + BitVec.ofNat 32 (ready.roll.geo.lDf + ready.roll.geo.j)) = true) ∧
      (64 - (List.replicate 63 (⟨.joint, 0, none⟩ : Mark)).length < 2 ∧
        64 - (List.replicate 61 (⟨.joint, 0, none⟩ : Mark)).length < 4 ∧ 32 ≤ (List.replicate 32 (panel 1)).length) ∧
      (reached 1 (deadlineAt ready.roll.geo ⟨0, 1, false⟩ - BitVec.ofNat 32 ready.roll.geo.a) = true) := by
  refine ⟨rfl, rfl, rfl, ⟨rfl, by decide, by decide, fun h => ?_⟩, ?_, by decide, by decide, by decide⟩
  · obtain ⟨_, e, he, hr⟩ := h 0 rfl { panel 0 with pInEnd := some 1, pOutEnd := some 0, state := .travelling } (by decide) rfl
    cases he
    exact absurd hr (by decide)
  · unfold lengthRuns
    decide

theorem witness_OutfeedCount_cut :
    ({ ready.roll.cut with state := .waiting, point := some 1, target := some ⟨0, 7⟩ } : Cut).target.isSome = true ∧
      ready.roll.cut.target = none ∧ ready.roll.cut.state ≠ .waiting := by decide

theorem witness_OutfeedCount :
    (countsForward false false false true false = true ∧ countsForward false false false false true = false) ∧
      ({ ready.dose with nextShift := 1 } : Dose).nextShift = ready.tracker.pOut + 1 ∧
      ready.tracker.pOut + 1 ≠ ready.dose.nextShift ∧
      (ready.former.state = .idle ∧ ready.tracker.map = [] ∧ ready.dose.pendingRecipe = none ∧
        ready.roll.cut.point = none) ∧
      reached (ready.tracker.pOut + 1) 1 = true ∧
      ¬(ready.dose.tunnel.pitch < (ready.tracker.high - (ready.tracker.pOut - 1)).toNat) ∧
      (ready.dose.tunnel.pitch < ((500 : Pos) - (0 - 1)).toNat ∧ ((500 : Pos) - (0 - 1)).toNat < 2 ^ 31 ∧
        (heated .running).sup.line ≠ .tripped) ∧ JointFlags ready :=
  ⟨by decide, by decide, by decide, by decide, by decide, by decide, by decide, jointFlags_none _ rfl⟩

/-- Panel 0's first step in a state, its trigger and its target at position 1. -/
def triggered (st : FormerState) : State := (forming .running st).onFormer fun f => { f with trigger := some 1, target := 1 }

theorem witness_OutfeedCount_former :
    FormerRests (atOut 1 ready) ∧
      ((triggered .wait).former.step = some 0 ∧ (patternAhead (triggered .wait)).steps[0]? = some pleat ∧
        (∀ st, triggerMet (atOut 1 (triggered st))) ∧ strokeRuns (triggered .wait).former pleat 0 ∧
        (triggered .wait).tracker.map = [] ∧ (triggered .wait).roll.cut.state ≠ .waiting ∧
        JointFlags (triggered .wait)) ∧
      ((triggered .held).former.state = .held ∧
        ({ (triggered .held).former with resume := some .wait } : Former).resume = some .wait) ∧
      (triggered .tuck).former.state = .tuck ∧ (triggered .press).former.state = .press ∧
      reached (triggered .feed).tracker.pIn (triggered .feed).former.target = false ∧
      (triggered .retract).tracker.bladeHome.level = false := by
  refine ⟨rests_idle rfl, ⟨rfl, rfl, fun _ => ⟨1, rfl, (by decide : reached 1 1 = true)⟩, ?_, rfl, by decide, jointFlags_none _ rfl⟩, by decide⟩
  show strokeCount _ _ _ < 2 ^ 31
  decide

theorem witness_OutfeedCount_cells :
    inPanel 0 (panel 0) ∧ ¬inPanel (0 - 1) (panel 0) ∧
      ([none, some (⟨0, 0, 0, false⟩ : Cell)].getLast? = some (some ⟨0, 0, 0, false⟩) ∧
        ∀ c, State.reset.dose.cells.getLast? ≠ some (some c)) ∧
      ((forming .running .lead).dose.tunnelRecipe = some 0 ∧ ready.dose.tunnelRecipe = none ∧
        (forming .running .lead).tracker.table = [] ++ panel 0 :: []) := by
  refine ⟨⟨by decide, fun e h => nomatch h⟩, fun h => absurd h.1 (by decide), ⟨by decide, fun c h => ?_⟩, by decide⟩
  have e : State.reset.dose.cells.getLast? = some none := by decide
  rw [e] at h
  cases h

theorem witness_OutfeedCount_marks :
    ready.roll.geo.lK = 40000 ∧ reached 1 ((1 - 40000 : Pos) + BitVec.ofNat 32 40000) = true ∧
      reached 1 ((2 - 40000 : Pos) + BitVec.ofNat 32 40000) = false ∧ MarkKind.panelStart ≠ .panelEnd ∧
      heldAtBoundary (heated .running).former = false ∧ (heated .running).roll.planner.state ≠ .planning ∧
      (ready.tracker.reports.length < 16 ∧ ∀ w ∈ (forming .running .lead).tracker.table, w.state ≠ .waitingReport) ∧
      16 ≤ (List.replicate 16 (panel 9)).length ∧
      ((forming .running .lead).tracker.table.map fun q =>
          if q.number = 0 then { q with state := PanelState.waitingReport } else q) =
        [] ++ { panel 0 with state := .waitingReport } :: [] := by
  decide

theorem witness_OutfeedCount_recipe :
    ¬tunnelDrained (forming .running .lead) ∧ tunnelDrained (heated .running) ∧
      ((ready.dose.recipes.get 0).inc.get 1 ≠ 0 ∧
        (handed 900 (ready.zones.get 1)).settle < (ready.dose.recipes.get 0).settle) := by
  refine ⟨fun h => (h 0 rfl (panel 0) (by decide) rfl).1 rfl, fun i _ r hr _ => ?_, by decide⟩
  cases hr

theorem witness_SwitchFilters :
    (pinOf ready.pins .hoodUp = false ∧ filterTimeOf ready.tracker.set .hoodUp ≠ 0) ∧
      filterTimeOf { ready.tracker.set with hoodUpTime := 0 } .hoodUp = 0 ∧
      (filterOf { ready.tracker with hoodUp := ⟨false, some 1⟩ } .hoodUp).timer ≠ none ∧
      (pinOf { ready.pins with hoodUp := true } .hoodUp == polarityOf ready.tracker.set .hoodUp) ≠
        (filterOf ready.tracker .hoodUp).level ∧
      ready.sup.hoodDown = false ∧ ready.tracker.joints.length < 4 ∧
      ({ ready.roll.planner with state := .fired, expected := some 0 } : Planner).expected = some 0 ∧
      inWindow ready.roll.geo 1500 0 = true ∧ inWindow ready.roll.geo 1501 0 = false ∧
      ¬(List.replicate 4 (⟨0, false, false⟩ : Joint)).length < 4 := by decide

/-- Panel 0's first stroke in RETRACT, the blade seen home, and what the end of the stroke leaves. -/
def homing (l : LineState) (late : Bool) : State :=
  let s := (forming l .retract).onFormer fun f => { f with late := late }
  { s with pins := { s.pins with bladeHome := true }, tracker := { s.tracker with bladeHome := ⟨false, some 1⟩ } }
def homed (l : LineState) (late : Bool) : State :=
  afterPleat 0 pleat (pleatFormed (onFilter .bladeHome (fun _ => ⟨true, none⟩) (homing l late)))

theorem witness_SwitchFilters_blade :
    ((filterOf (homing .running true).tracker .bladeHome).timer ≠ none ∧
        (pinOf (homing .running true).pins .bladeHome ==
          polarityOf (homing .running true).tracker.set .bladeHome) = true ∧
        (filterOf (homing .running true).tracker .bladeHome).level = false) ∧
      ((homing .running true).former.step = some 0 ∧
        (patternAhead (homing .running true)).steps[0]? = some pleat ∧ JointFlags (homing .running true)) ∧
      ((homing .stopping false).sup.line = .stopping ∧ (homing .stopping false).sup.vRef = 0 ∧
        ({ rolling.sup with vRef := 1 } : Supervisor).vRef ≠ 0) ∧
      (¬((homed .running false).former.state = .wait ∧ (homing .running false).former.late = true) ∧
        FormerRests (homed .running false)) ∧
      ((homed .running true).former.state = .wait ∧ (homing .running true).former.late = true ∧
        (homed .running true).former.step = some 0 ∧
        strokeRuns (homed .running true).former pleat (homed .running true).former.rep) := by
  refine ⟨by decide, ⟨rfl, rfl, jointFlags_none _ rfl⟩, by decide, ⟨by decide, ?_⟩, rfl, rfl, rfl, ?_⟩
  · show ¬triggerMet (homed .running false)
    intro ⟨x, h, _⟩
    cases h
  · show strokeCount _ _ _ < 2 ^ 31
    decide

/-- A line with its hood commanded down and the hood-down switch closed but not yet seen. -/
def closing (s : State) : State :=
  { s with
    pins := { s.pins with hoodDown := true }, tracker := { s.tracker with hoodDown := ⟨false, some 1⟩ },
    sup := { s.sup with hoodDown := true } }
/-- Panel 0 held in TUCK by a stop. -/
def paused : State := (forming .lowering .held).onFormer fun f => { f with hold := .stoppedMid, resume := some .tuck }
/-- Panel 0 held before its first stroke, the trigger at position 1 and kept as reached or not. -/
def awaiting (kept : Bool) : State :=
  (forming .lowering .held).onFormer fun f =>
    { f with hold := .stoppedMid, resume := some .wait, trigger := some 1, reachedInStop := kept }

theorem test_trigger_in_a_stop_is_kept :
    (after (.outfeedCount true false) (awaiting false)).former.reachedInStop = true := by decide
theorem test_kept_trigger_starts_its_stroke_at_once :
    (after (.filterExpiry .hoodDown) (closing (awaiting true))).former.state = .feed ∧
      (after (.filterExpiry .hoodDown) (closing (awaiting false))).former.state = .wait := by decide

theorem witness_SwitchFilters_hood :
    ((filterOf (closing ready).tracker .hoodDown).timer ≠ none ∧
        (pinOf (closing ready).pins .hoodDown == polarityOf (closing ready).tracker.set .hoodDown) = true ∧
        (filterOf (closing ready).tracker .hoodDown).level = false ∧ (closing ready).sup.line ≠ .lowering) ∧
      (closing (heated .lowering)).sup.line = .lowering ∧ (⟨true, false, false⟩ : HoldCauses) ≠ ⟨false, false, false⟩ ∧
      ((closing (forming .lowering .tuck)).sup.causes = ⟨false, false, false⟩ ∧
        (closing (forming .lowering .tuck)).former.state = .tuck) ∧
      ((closing paused).former.state = .held ∧ (closing paused).former.hold = .stoppedMid ∧
        (closing paused).former.resume = some .tuck ∧
        FormerRests { closing paused with former := { paused.former with state := .tuck } }) ∧
      ((closing (awaiting true)).former.state = .held ∧ (closing (awaiting true)).former.resume = some .wait ∧
        (closing (awaiting true)).former.step = some 0 ∧
        (patternAhead (closing (awaiting true))).steps[0]? = some pleat ∧
        (closing (awaiting true)).former.reachedInStop = true ∧ (closing (awaiting false)).former.reachedInStop = false ∧
        (closing (awaiting false)).former.late = false) ∧
      (strokeRuns (closing (awaiting true)).former pleat 0 ∧ JointFlags (closing (awaiting true)) ∧
        triggerMet (atOut 1 (awaiting false))) ∧
      ((closing (heated .lowering)).former.state = .idle ∧ (closing (heated .lowering)).former.panel = none ∧
        (closing (heated .lowering)).queue.orders = order 1 :: [] ∧
        (closing (heated .lowering)).dose.tunnelRecipe = some (order 1).recipe ∧
        (closing (heated .lowering)).tracker.table.length < 32 ∧ (closing (heated .lowering)).tracker.map.length ≤ 60 ∧
        lengthRuns (countOf (heated .lowering).former (patternAhead (heated .lowering)).lead)) := by
  refine ⟨by decide, rfl, by decide, ⟨rfl, rfl⟩, ⟨rfl, rfl, rfl, ?_⟩, by decide,
    ⟨?_, jointFlags_none _ rfl, 1, rfl, by decide⟩, rfl, rfl, rfl, rfl, by decide, by decide, ?_⟩
  · intro ⟨x, h, _⟩
    cases h
  · show strokeCount _ _ _ < 2 ^ 31
    decide
  · unfold lengthRuns
    decide

/-- Panel 0's first stroke in PRESS with the blade home already. -/
def pressedHome (l : LineState) : State :=
  { forming l .press with tracker := { (forming l .press).tracker with bladeHome := ⟨true, none⟩ } }

theorem test_press_end_at_home_counts_its_pleat :
    (after .pressEnd (pressedHome .running)).former.state = .wait ∧
      (after .pressEnd (pressedHome .running)).tracker.table.map PanelRec.formed = [1] := by decide

theorem witness_StrokePhases_home :
    (pressedHome .running).former.state = .press ∧ (pressedHome .running).former.timer ≠ none ∧
      (pressedHome .running).tracker.bladeHome.level = true ∧ (pressedHome .running).former.step = some 0 ∧
      (patternAhead (pressedHome .running)).steps[0]? = some pleat ∧ JointFlags (pressedHome .running) :=
  ⟨rfl, by decide, rfl, rfl, rfl, jointFlags_none _ rfl⟩

theorem witness_StrokePhases :
    ((forming .running .tuck).former.state = .tuck ∧ (forming .running .tuck).former.timer ≠ none ∧
        currentStep (forming .running .tuck) = some pleat) ∧
      ((forming .running .press).former.state = .press ∧ (forming .running .press).tracker.bladeHome.level = false ∧
        (forming .running .press).former.trigger = none) ∧
      reached 0 0 = true ∧
      ((forming .stopping .press).sup.line = .stopping ∧ currentStep (forming .stopping .press) = some pleat ∧
        (forming .stopping .press).former.panel = some 0 ∧ panel 0 ∈ (forming .stopping .press).tracker.table ∧
        (panel 0).number = 0 ∧ ({ ready.tracker with bladeHome := ⟨true, none⟩ } : Tracker).bladeHome.level = true) ∧
      JointFlags (forming .running .press) ∧ JointFlags (forming .running .tuck) :=
  ⟨by decide, by decide, by decide, by decide, jointFlags_none _ rfl, jointFlags_none _ rfl⟩

theorem witness_TimerExpiries :
    ((heated .running).dose.tunnelRecipe ≠ none ∧ (zoned .soft (heated .running)).zones.z1.state = .soft) ∧
      ready.dose.tunnelRecipe = none ∧ ({ ready.zones.z1 with windowDuty := 1000 } : Zone).windowDuty = 1000 ∧
      ready.zones.z1.windowDuty ≠ 1000 ∧ ready.monitor.interval = 0 ∧ 8 + 1 < 10 ∧ 10 ≤ 9 + 1 ∧
      (zoned .regulating ready).zones.z1.state = .regulating ∧ (ready.monitor.zones.get 1).probeFlagged = false ∧
      (ready.zones.get 0).state = .off ∧ ready.monitor.position + 1 = 1 ∧ ready.monitor.test = none ∧
      ({ ready.sup with hoodDelayTimer := some 0 } : Supervisor).hoodDelayTimer ≠ none ∧
      (rolling.sup.hood = .down ∧ rolling.tracker.hoodUp.level = false) ∧
      ({ ready.roll.cut with pulse := some 0 } : Cut).pulse ≠ none := by decide

/-- The laws hold of a state from which a step is taken. -/
theorem witness_LawsKept :
    Accounting ready ∧ References ready ∧ Orders ready ∧ Capacity ready ∧ Duty ready ∧ Speed ready ∧ Carries ready ∧
      Routing ready ∧ JointFlags ready ∧ Ring ready ∧
      ∃ t, step { ready with pending := [.doseSample] } = .next t := by
  refine ⟨rfl, references_ready, orders_ready, by unfold Capacity; decide, ?_, by unfold Speed; decide,
    by unfold Carries; decide, ?_, jointFlags_none _ rfl, ?_, ⟨_, rfl⟩⟩
  · intro z
    match z with
    | 0 | 1 | 2 | 3 => unfold zoneDuty; decide
  · intro p
    cases p <;> exact ⟨by decide, by decide, by unfold recordKept; decide⟩
  · refine ⟨by decide, by decide, ?_⟩
    intro c hc
    have h : some c ∈ List.replicate 32 none := hc
    simp at h

end Sys2Proof.Tests
end

section
/-! SUPPORT. The station ports: frames that reach no block, the request table, device reset, the views of STATUS_READ,
and the loss of a port. -/

namespace Sys2Proof.Machine

open Sys2Proof.Safety

/-! ### Frames that reach no block -/

/-- The completeness step finds no frame: no length byte, one above 60, or fewer bytes than it announces (R8, R10). -/
theorem parseFrame_keptBytes_none {bytes : List Byte}
    (h : bytes = [] ∨ (∃ k, bytes = [k]) ∨ (∃ k n rest, bytes = k :: n :: rest ∧ 60 < n.toNat) ∨
      ∃ k n rest, bytes = k :: n :: rest ∧ n.toNat ≤ 60 ∧ rest.length < n.toNat) :
    parseFrame (keptBytes bytes) = none := by
  rcases h with rfl | ⟨k, rfl⟩ | ⟨k, n, rest, rfl, hn⟩ | ⟨k, n, rest, rfl, hn, hr⟩
  · rfl
  · rfl
  · exact if_neg (by omega)
  · refine if_neg fun hc => ?_
    have hlen : (rest.take 61).length ≤ rest.length := List.length_take_le' _ _
    exact absurd (hc.2.trans hlen) (by omega)

theorem exec_incompleteFrame {bytes : List Byte} (p : Port) (s : State) (h : parseFrame (keptBytes bytes) = none) :
    exec (.incompleteFrame p bytes) s = .next (discarded p bytes s) := by
  show execIncompleteFrame p bytes s = _
  rw [execIncompleteFrame, h, discard_eq]
  rfl

theorem exec_unknownKindFrame {kind : Byte} {f : Frame} (s : State) (hk : kind ∉ requestKinds)
    (hp : f.payload.length ≤ 60) :
    exec (.unknownKindFrame kind f) s = .next (answered kind f .badKind [] s) := by
  have hc : requestKinds.contains kind = false := by simpa using hk
  show execUnknownKindFrame kind f s = _
  rw [execUnknownKindFrame, hc, parseFrame_bytes kind f hp]
  exact congrArg Host.Outcome.next (respond_received kind f ⟨.badKind, []⟩ s)

/-! ### Every request row is served with the lengths of its table row -/

/-- A check of one length admits that length only. -/
theorem mem_of_exactly {n m : Nat} (h : exactly n m = true) : m ∈ [n] := by simpa [exactly] using h

theorem mem_of_stepsLength {n : Nat} (h : stepsLength n = true) : n ∈ [9, 18, 27, 36, 45, 54] := by
  simp only [stepsLength, within, Bool.and_eq_true, decide_eq_true_eq] at h
  simp only [List.mem_cons, List.not_mem_nil, or_false]
  omega

theorem mem_of_monitorLength {n : Nat} (h : (exactly 5 n || exactly 6 n) = true) : n ∈ [5, 6] := by
  simpa [exactly] using h

/-- A request row serves its frame by its line of the table of section 1.5. -/
theorem exec_request {c : Instr} {r : Request} (s : State) (h : requestOf c = some r) :
    ∃ lengthOk block, (∀ n, n ≤ 60 → lengthOk n = true → n ∈ r.lengths) ∧
      exec c s = .next (serve r.kind r.authority lengthOk block r.frame s) := by
  cases c <;> cases h
  case nop => exact ⟨_, _, fun n hn _ => List.mem_range.mpr (by omega), rfl⟩
  case patternSteps => exact ⟨_, _, fun _ _ => mem_of_stepsLength, rfl⟩
  case monitorSetZone | monitorSetLine => exact ⟨_, _, fun _ _ => mem_of_monitorLength, rfl⟩
  all_goals exact ⟨_, _, fun _ _ => mem_of_exactly, rfl⟩

/-! ### Attention -/

/-- A routed occurrence above the port's floor asserts its attention output (R27, R28). -/
theorem attention_notePort {r : RouterPort} {k : EventKind} {e : EventRecord} (d : List Byte)
    (he : r.records[eventNumber k]? = some e) (hf : r.floor < e.level) : attention (notePort k d r) = true := by
  have hnote : (r.records.modify (eventNumber k) (noteRecord d))[eventNumber k]? = some (noteRecord d e) := by
    simp [he]
  have hmem := List.mem_of_getElem? hnote
  refine List.any_eq_true.mpr ⟨noteRecord d e, hmem, ?_⟩
  have h0 : e.level ≠ 0 := by omega
  simp [noteRecord, h0, notePort, hf]

/-- Every kind has a record among the twenty of R26. -/
theorem eventNumber_lt (k : EventKind) : eventNumber k < 20 := by cases k <;> decide

theorem attention_notePort_reset (k : EventKind) (d : List Byte) :
    attention (notePort k d RouterPort.reset) = true :=
  attention_notePort (e := EventRecord.clear 1) d
    (List.getElem?_replicate_of_lt (eventNumber_lt k)) (by decide)

/-! ### The blocks after a device reset -/

section
variable (pins : Pins)

theorem powerOn_port (p : Port) : (State.powerOn pins).ports.get p = PortState.reset := by cases p <;> rfl

theorem powerOn_router (p : Port) : (State.powerOn pins).router.get p = RouterPort.reset := by cases p <;> rfl

theorem powerOn_zone (z : Fin 4) : (State.powerOn pins).zones.get z = Zone.reset := by
  match z with | 0 | 1 | 2 | 3 => rfl

theorem powerOn_recipe (i : Fin 4) : (State.powerOn pins).dose.recipes.get i = Recipe.blank := by
  match i with | 0 | 1 | 2 | 3 => rfl

theorem powerOn_zoneMonitor (z : Fin 4) : (State.powerOn pins).monitor.zones.get z = ZoneMonitor.reset := by
  match z with | 0 | 1 | 2 | 3 => rfl

theorem powerOn_slot (i : Fin 16) : slotAt (State.powerOn pins) i = Slot.cleared := by
  show (List.replicate 16 Slot.cleared).getD i.val Slot.cleared = Slot.cleared
  rw [List.getD_eq_getElem?_getD, List.getElem?_replicate_of_lt i.isLt, Option.getD_some]

end

/-! ### STATUS_READ -/

/-- Every row of STATUS_READ is the same request (R13). -/
theorem exec_viewRow {c : Instr} {f : Frame} (s : State) (hc : isViewRow c f) (hl : f.payload.length = 3) :
    exec c s = .next (answeredBy 0x02 statusRead f s) := by
  have hp : f.payload.length ≤ 60 := by omega
  have he : exactly 3 f.payload.length = true := by simp [exactly, hl]
  simp only [isViewRow, List.mem_cons, List.not_mem_nil, or_false] at hc
  rcases hc with rfl | rfl | rfl | rfl | rfl | rfl | rfl | rfl
  · exact exec_lineView s hp he
  · exact exec_zoneView s hp he
  · exact exec_formerView s hp he
  · exact exec_queueView s hp he
  · exact exec_panelView s hp he
  · exact exec_mapView s hp he
  · exact exec_spliceView s hp he
  · exact exec_portView s hp he

/-- A STATUS_READ row whose work is an answer and nothing else. -/
theorem exec_viewRow_same {c : Instr} {f : Frame} {s : State} {st : Status} {payload : List Byte}
    (hc : isViewRow c f) (hl : f.payload.length = 3)
    (h : statusRead f.port f.payload (received 0x02 f s) = (received 0x02 f s, ⟨st, payload⟩)) :
    exec c s = .next (answered 0x02 f st payload s) := by
  rw [exec_viewRow s hc hl, answeredBy_same h]

section
variable {p : Port} {v i j : Byte} {s : State}

theorem u16_index : u16 [v, i, j] 1 = i.toNat + 256 * j.toNat := by simp [u16, leNat]

theorem statusRead_badView (h : 7 < v.toNat) : statusRead p [v, i, j] s = refuse .badValue s := by
  obtain ⟨n, hn⟩ : ∃ n, u8 [v, i, j] 0 = n + 8 := ⟨v.toNat - 8, (Nat.sub_add_cancel h).symm⟩
  rw [statusRead, hn]
  rfl

theorem statusRead_zone (z : Fin 4) (h : i.toNat + 256 * j.toNat = z.val) :
    statusRead p [1, i, j] s = okWith (zoneLayout s z) s := by
  have hz : fin4 z.val = z := by simp [fin4]
  show (if 3 < u16 [1, i, j] 1 then _ else okWith (zoneViewBytes s (fin4 (u16 [1, i, j] 1))) s) = _
  rw [u16_index, h, if_neg (by omega), hz, zoneViewBytes_eq]

theorem statusRead_badZone (h : 3 < i.toNat + 256 * j.toNat) : statusRead p [1, i, j] s = refuse .badValue s := by
  show (if 3 < u16 [1, i, j] 1 then _ else _) = _
  rw [u16_index, if_pos h]

/-- A payload's panel number and a record's are the same number. -/
theorem number_eq_index (n : BitVec 16) :
    (n == BitVec.ofNat 16 (u16 [v, i, j] 1)) = decide (n.toNat = i.toNat + 256 * j.toNat) := by
  have hlt : i.toNat + 256 * j.toNat < 2 ^ 16 := by omega
  rw [u16_index, Bool.eq_iff_iff, beq_iff_eq, decide_eq_true_eq, ← BitVec.toNat_inj, BitVec.toNat_ofNat,
    Nat.mod_eq_of_lt hlt]

theorem statusRead_noPanel (h : ∀ r ∈ s.tracker.table, r.number.toNat ≠ i.toNat + 256 * j.toNat) :
    statusRead p [4, i, j] s = refuse .notFound s := by
  have hf : findPanel s.tracker (BitVec.ofNat 16 (u16 [4, i, j] 1)) = none :=
    List.find?_eq_none.mpr fun r hr => by simpa [number_eq_index] using h r hr
  have hv : u8 [4, i, j] 0 = 4 := rfl
  simp only [statusRead, hv, hf]

theorem statusRead_panel {before after : List PanelRec} {r : PanelRec} (ht : s.tracker.table = before ++ r :: after)
    (hb : ∀ q ∈ before, q.number ≠ r.number) (hn : r.number.toNat = i.toNat + 256 * j.toNat) :
    statusRead p [4, i, j] s = okWith (recordLayout r) s := by
  have hf : findPanel s.tracker (BitVec.ofNat 16 (u16 [4, i, j] 1)) = some r := by
    rw [findPanel, ht, List.find?_eq_some_iff_append]
    refine ⟨by simpa [number_eq_index] using hn, before, after, rfl, fun q hq => ?_⟩
    have hne : q.number.toNat ≠ i.toNat + 256 * j.toNat := fun he => hb q hq (BitVec.eq_of_toNat_eq (he.trans hn.symm))
    simpa [number_eq_index] using hne
  have hv : u8 [4, i, j] 0 = 4 := rfl
  simp only [statusRead, hv, hf, recordBytes_eq]

end

/-- With the roll status known the SPLICE view reads no free value. -/
theorem spliceLayout_known {s : State} (h : s.roll.planner.status ≠ none) (a b a' b' : Pos) :
    spliceLayout s a b = spliceLayout s a' b' := by
  obtain ⟨r, hr⟩ := Option.ne_none_iff_exists'.mp h
  simp only [spliceLayout, hr]

theorem afterSpliceView_known {s : State} (h : s.roll.planner.status ≠ none) : afterSpliceView s = s := if_neg h

theorem afterSpliceView_unknown {s : State} (h : s.roll.planner.status = none) : afterSpliceView s = s.nextFree :=
  if_pos h

/-! ### One event record -/

/-- The record a router port holds of a kind (R26). -/
def recordOf (k : EventKind) (r : RouterPort) : Option EventRecord := r.records[eventNumber k]?

/-- The kinds in the order of their numbers (R23). -/
def kindsInOrder : List EventKind :=
  [.trip, .lineState, .zoneFault, .probeOpen, .zonePurge, .hold, .strokeLate, .masterLost, .spliceScheduled,
   .spliceDone, .spliceFailed, .rollLow, .cutDone, .orderDone, .runQueueLow, .runQueueEmpty, .reportReady,
   .reportQueueFull, .lineResetDone, .zonesSettled]

theorem kindsInOrder_eventNumber (k : EventKind) : kindsInOrder[eventNumber k]? = some k := by cases k <;> rfl

theorem eventNumber_injective : Function.Injective eventNumber := fun j k h =>
  Option.some.inj ((kindsInOrder_eventNumber j).symm.trans (h ▸ kindsInOrder_eventNumber k))

theorem recordOf_notePort_same (k : EventKind) (d : List Byte) (r : RouterPort) :
    recordOf k (notePort k d r) = (recordOf k r).map (noteRecord d) := by
  simp [recordOf, notePort]

theorem recordOf_notePort_ne {j k : EventKind} (h : j ≠ k) (d : List Byte) (r : RouterPort) :
    recordOf k (notePort j d r) = recordOf k r := by
  have hn : eventNumber j ≠ eventNumber k := fun he => h (eventNumber_injective he)
  simp [recordOf, notePort, hn]

/-- The record of a kind at every port. -/
def recordsOf (k : EventKind) (s : State) : Three (Option EventRecord) := s.router.map (recordOf k)

theorem recordsOf_get (k : EventKind) (s : State) (p : Port) :
    (recordsOf k s).get p = recordOf k (s.router.get p) := Three.get_map _ _ _

theorem recordsOf_raise_ne {j k : EventKind} (h : j ≠ k) (d : List Byte) (s : State) :
    recordsOf k (raise j d s) = recordsOf k s :=
  Three.ext_get fun p => by simp [recordsOf, raise, recordOf_notePort_ne h]

theorem recordsOf_raise_same (k : EventKind) (d : List Byte) (s : State) :
    recordsOf k (raise k d s) = (recordsOf k s).map (Option.map (noteRecord d)) :=
  Three.ext_get fun p => by simp [recordsOf, raise, recordOf_notePort_same]

/-! ### What only the planner's signals change -/

/-- The planner, the splice limit, and the records of the two kinds by which a lost port and a failed splice are told. -/
def aside (s : State) : Planner × Bool × Three (Option EventRecord) × Three (Option EventRecord) :=
  (s.roll.planner, s.sup.spliceLimit, recordsOf .masterLost s, recordsOf .spliceFailed s)

/-- The signals the splice planner takes. -/
def plannerSignal : Sig → Bool
  | .jointPassed _ | .search _ | .deadline | .approach | .fire | .window | .dueExpiry | .rollOut
  | .cancelSplice _ => true
  | _ => false

section
variable (s : State)

@[simp] theorem aside_onStore (f : Store → Store) : aside (s.onStore f) = aside s := rfl
@[simp] theorem aside_onQueue (f : RunQueue → RunQueue) : aside (s.onQueue f) = aside s := rfl
@[simp] theorem aside_onFormer (f : Former → Former) : aside (s.onFormer f) = aside s := rfl
@[simp] theorem aside_onTracker (f : Tracker → Tracker) : aside (s.onTracker f) = aside s := rfl
@[simp] theorem aside_onZone (z : Fin 4) (f : Zone → Zone) : aside (s.onZone z f) = aside s := rfl
@[simp] theorem aside_withSettled (b : Bool) : aside (s.withSettled b) = aside s := rfl
@[simp] theorem aside_onDose (f : Dose → Dose) : aside (s.onDose f) = aside s := rfl
@[simp] theorem aside_onMonitor (f : Monitor → Monitor) : aside (s.onMonitor f) = aside s := rfl
@[simp] theorem aside_onZoneMonitor (z : Fin 4) (f : ZoneMonitor → ZoneMonitor) :
    aside (s.onZoneMonitor z f) = aside s := rfl
@[simp] theorem aside_onCut (f : Cut → Cut) : aside (s.onCut f) = aside s := rfl
@[simp] theorem aside_onPanel (n : BitVec 16) (f : PanelRec → PanelRec) : aside (onPanel n f s) = aside s := rfl
@[simp] theorem aside_onHead (f : Order → Order) : aside (onHead f s) = aside s := rfl
@[simp] theorem aside_dropReference (i : Fin 16) : aside (dropReference i s) = aside s := rfl
@[simp] theorem aside_writeMark (k : MarkKind) (p : Option (BitVec 16)) : aside (writeMark k p s) = aside s := rfl
@[simp] theorem aside_beginPanel (o : Order) : aside (beginPanel o s) = aside s := rfl
@[simp] theorem aside_beginLength (l : Nat) : aside (beginLength l s) = aside s := rfl

theorem aside_onSup {f : Supervisor → Supervisor} (h : ∀ v, (f v).spliceLimit = v.spliceLimit) :
    aside (s.onSup f) = aside s := by
  simp only [aside, State.onSup, h]
  rfl

@[simp] theorem aside_raise {k : EventKind} (h1 : k ≠ .masterLost) (h2 : k ≠ .spliceFailed) (d : List Byte) :
    aside (raise k d s) = aside s := by
  simp only [aside, recordsOf_raise_ne h1, recordsOf_raise_ne h2]
  rfl

/-! #### Queue and web -/

@[simp] theorem aside_onFormingPanel (f : PanelRec → PanelRec) : aside (onFormingPanel f s) = aside s := by
  unfold onFormingPanel; split <;> rfl

@[simp] theorem aside_flagJoints : aside (flagJoints s) = aside s := by
  unfold flagJoints; split <;> simp

@[simp] theorem aside_queuedFell : aside (queuedFell s) = aside s := by unfold queuedFell; split <;> simp

@[simp] theorem aside_activate : aside (activate s) = aside s := by unfold activate; split <;> simp

@[simp] theorem aside_retire (k : Nat) : aside (retire k s) = aside s := by unfold retire; split <;> simp

@[simp] theorem aside_countPanel : aside (countPanel s) = aside s := by
  unfold countPanel; dsimp only; split
  · simp
  · split
    · simp
    · split <;> simp

@[simp] theorem aside_countAborted : aside (countAborted s) = aside s := by
  unfold countAborted; split
  · rfl
  · split <;> simp

@[simp] theorem aside_chooseTarget : aside (chooseTarget s) = aside s := by unfold chooseTarget; split <;> rfl

@[simp] theorem aside_cutSeesEnd : aside (cutSeesEnd s) = aside s := by unfold cutSeesEnd; split <;> simp

@[simp] theorem aside_cutSeesStart : aside (cutSeesStart s) = aside s := by
  unfold cutSeesStart; split
  · rfl
  · split
    · split
      · rfl
      · dsimp only; split <;> rfl
    · rfl

@[simp] theorem aside_closePanel (n : BitVec 16) (a : Bool) : aside (closePanel n a s) = aside s := by
  simp [closePanel]

@[simp] theorem aside_queueReport (r : PanelRec) : aside (queueReport r s) = aside s := by
  unfold queueReport; dsimp only; split <;> simp

@[simp] theorem aside_panelAtKnife (n : BitVec 16) : aside (panelAtKnife n s).1 = aside s := by
  unfold panelAtKnife; split
  · rfl
  · split <;> simp [quiet, awaitReport]

@[simp] theorem aside_passKnife : aside (passKnife s).1 = aside s := by
  unfold passKnife; split
  · rfl
  · split
    · dsimp only; split <;> simp
    · rfl

@[simp] theorem aside_markJoint : aside (markJoint s) = aside s := by unfold markJoint; dsimp only; split <;> rfl

@[simp] theorem aside_markArrivals (g : RollGeometry) (p : Pos) (es : List Joint) :
    aside (markArrivals g p es s) = aside s := by
  induction es generalizing s with
  | nil => rfl
  | cons e es ih => rw [markArrivals, ih]; split <;> simp

/-! #### Zones and line -/

@[simp] theorem aside_handTarget (t : Nat) (z : Fin 4) : aside (handTarget t z s) = aside s := by
  unfold handTarget; split <;> rfl

@[simp] theorem aside_retarget : aside (retarget s) = aside s := by simp [retarget, zonesInOrder]

@[simp] theorem aside_reportSettled (f : Bool) : aside (reportSettled f s).1 = aside s := by
  unfold reportSettled; dsimp only; split
  · rfl
  · dsimp only; split <;> simp

@[simp] theorem aside_drainTest : aside (drainTest s).1 = aside s := by
  unfold drainTest; split
  · rfl
  · split
    · simp
    · rfl

@[simp] theorem aside_setCauses (c : HoldCauses) : aside (setCauses c s) = aside s := by
  have h : aside (s.onSup fun v => { v with causes := c }) = aside s := aside_onSup s fun _ => rfl
  unfold setCauses; split
  · rfl
  · dsimp only; split <;> simp [h]

@[simp] theorem aside_withdrawCauses : aside (withdrawCauses s) = aside s := by simp [withdrawCauses]

@[simp] theorem aside_leaveBoundaryHold : aside (leaveBoundaryHold s) = aside s := by
  unfold leaveBoundaryHold; split <;> simp

@[simp] theorem aside_commandHood (b : Bool) : aside (commandHood b s) = aside s := by
  have h : aside (s.onSup fun v => { v with hoodDown := b }) = aside s := aside_onSup s fun _ => rfl
  unfold commandHood deriveHood; dsimp only; split
  · exact h
  · exact (aside_onSup _ fun _ => rfl).trans h

@[simp] theorem aside_setLine (l : LineState) : aside (setLine l s) = aside s := by
  have h : aside (s.onSup fun v => { v with prev := v.line, line := l }) = aside s := aside_onSup s fun _ => rfl
  simp [setLine, h]

@[simp] theorem aside_enterLine (l : LineState) : aside (enterLine l s).1 = aside s := by
  cases l <;> simp only [enterLine, quiet, aside_leaveBoundaryHold, aside_commandHood, aside_setLine]
  case stopped | stopping => exact aside_onSup s fun _ => rfl
  case holding => split <;> simp only [aside_commandHood, aside_setLine] <;> exact aside_onSup s fun _ => rfl

@[simp] theorem aside_tripLine (c : TripCause) : aside (tripLine c s).1 = aside s := by
  unfold tripLine; dsimp only; split
  · simp [quiet]
  · simp only [aside_onMonitor, aside_commandHood, aside_setLine]
    rw [aside_raise _ (by decide) (by decide)]
    exact aside_onSup s fun _ => rfl

@[simp] theorem aside_causesChanged : aside (causesChanged s).1 = aside s := by
  unfold causesChanged; split
  · simp
  · split
    · rw [aside_enterLine]; exact aside_onSup s fun _ => rfl
    · rfl

/-! #### Former -/

@[simp] theorem aside_enterStep (i : Nat) : aside (enterStep i s) = aside s := by
  unfold enterStep; split
  · rfl
  · split <;> rfl

@[simp] theorem aside_recordLate : aside (recordLate s) = aside s := by unfold recordLate; split <;> simp

@[simp] theorem aside_enterFeed (st : StepRec) : aside (enterFeed st s) = aside s := by
  unfold enterFeed; dsimp only; split <;> simp

@[simp] theorem aside_startStroke : aside (startStroke s).1 = aside s := by
  unfold startStroke; split
  · rfl
  · simp

@[simp] theorem aside_afterStroke : aside (afterStroke s) = aside s := by
  unfold afterStroke; split
  · split
    · rfl
    · split
      · rfl
      · split <;> rfl
  · rfl

@[simp] theorem aside_endRetract : aside (endRetract s).1 = aside s := by
  unfold endRetract; split
  · rfl
  · dsimp only; split
    · simp
    · split <;> simp

@[simp] theorem aside_holdFor (h : HoldReason) : aside (holdFor h s) = aside s := by simp [holdFor]
@[simp] theorem aside_restIdle : aside (restIdle s) = aside s := by simp [restIdle]
@[simp] theorem aside_startBridge (i : Fin 4) : aside (startBridge i s) = aside s := by simp [startBridge]

@[simp] theorem aside_startPanel : aside (startPanel s) = aside s := by
  unfold startPanel; dsimp only; split <;> simp

@[simp] theorem aside_boundaryTest : aside (boundaryTest s).1 = aside s := by
  unfold boundaryTest; split
  · rfl
  · split
    · dsimp only; rw [aside_holdFor]; split <;> simp
    · split
      · split
        · simp
        · split <;> simp
      · split
        · simp
        · split <;> simp

@[simp] theorem aside_endPanel : aside (endPanel s).1 = aside s := by
  unfold endPanel; split
  · rfl
  · simp

@[simp] theorem aside_noteLate : aside (noteLate s) = aside s := by unfold noteLate; split <;> rfl

@[simp] theorem aside_keepReached : aside (keepReached s) = aside s := by unfold keepReached; split <;> rfl

@[simp] theorem aside_endFollow : aside (endFollow s).1 = aside s := by
  unfold endFollow; split
  · simp
  · split
    · split <;> simp
    · rfl
  · simp
  all_goals rfl

@[simp] theorem aside_formerTest : aside (formerTest s).1 = aside s := by
  unfold formerTest; split
  case h_4 | h_8 => split <;> simp [quiet]
  case h_5 => dsimp only [quiet]; split <;> simp [endFeed]
  case h_6 | h_7 | h_9 => simp [quiet]
  case h_10 | h_11 => rfl
  all_goals split <;> simp [quiet]

@[simp] theorem aside_formerRun : aside (formerRun s).1 = aside s := by
  unfold formerRun; split
  · rfl
  · split
    case h_2 =>
      split
      · unfold resumeWork; dsimp only; split <;> simp
      · rfl
    all_goals rfl

@[simp] theorem aside_formerPause : aside (formerPause s).1 = aside s := by
  unfold formerPause; split <;> simp [quiet]

@[simp] theorem aside_abortPanel : aside (abortPanel s) = aside s := by unfold abortPanel; split <;> simp

@[simp] theorem aside_abortBridge : aside (abortBridge s) = aside s := by unfold abortBridge; split <;> simp

@[simp] theorem aside_formerAbort : aside (formerAbort s).1 = aside s := by simp [formerAbort, quiet]

@[simp] theorem aside_bridgeTest : aside (bridgeTest s).1 = aside s := by unfold bridgeTest; split <;> rfl

end

/-- Every signal that is not the planner's leaves the planner, the splice limit and the two records aside. -/
theorem aside_handle (g : Sig) (s : State) (h : plannerSignal g = false) : aside (handle g s).1 = aside s := by
  cases g
  case trip c => exact aside_tripLine s c
  case hoodSeen => show aside (hoodSeen s).1 = _; unfold hoodSeen; split <;> simp [quiet]
  case warm => show aside (warmTest s).1 = _; unfold warmTest; split <;> simp [quiet]
  case causes => exact aside_causesChanged s
  case stopCheck => show aside (stopCheck s).1 = _; unfold stopCheck; split <;> simp [quiet]
  case reportEnd => show aside (reportEnd s).1 = _; unfold reportEnd; split <;> simp [quiet]
  case settled force => exact aside_reportSettled s force
  case drain => exact aside_drainTest s
  case former => exact aside_formerTest s
  case boundary => exact aside_boundaryTest s
  case space => show aside (spaceTest s).1 = _; unfold spaceTest; split <;> rfl
  case formerRun => exact aside_formerRun s
  case formerPause => exact aside_formerPause s
  case abort => exact aside_formerAbort s
  case bridge => exact aside_bridgeTest s
  case joints => show aside (arriveJoints s) = _; simp [arriveJoints]
  case jointsPast => show aside (passJoints s).1 = _; simp [passJoints]
  case track x => exact aside_onTracker s _
  case knife => exact aside_passKnife s
  all_goals cases h

/-! ### What the planner's signals change -/

/-- A roll-low test touches the planner's status alone, and not whether it is known (R154). -/
theorem testRollLow_planner (s : State) :
    ∃ st, (testRollLow s).roll.planner = { s.roll.planner with status := st } ∧
      st.isSome = s.roll.planner.status.isSome := by
  unfold testRollLow
  split
  · next h => exact ⟨none, by rw [← h], by rw [h]⟩
  · next r h =>
    split
    · exact ⟨some { r with lowRaised := true }, rfl, by rw [h]; rfl⟩
    · exact ⟨some r, by rw [← h], by rw [h]⟩

theorem testRollLow_spliceLimit (s : State) : (testRollLow s).sup.spliceLimit = s.sup.spliceLimit := by
  unfold testRollLow
  split
  · rfl
  · split <;> rfl

theorem recordsOf_testRollLow {k : EventKind} (h : .rollLow ≠ k) (s : State) :
    recordsOf k (testRollLow s) = recordsOf k s := by
  unfold testRollLow
  split
  · rfl
  · split
    · exact recordsOf_raise_ne h _ _
    · rfl

section
variable {k : EventKind} (s : State)

theorem recordsOf_schedule (h : .spliceScheduled ≠ k) (c : Candidate) :
    recordsOf k (schedule c s) = recordsOf k s := (recordsOf_raise_ne h _ _).trans rfl

theorem recordsOf_forceSplice (h : .spliceScheduled ≠ k) : recordsOf k (forceSplice s) = recordsOf k s :=
  (recordsOf_raise_ne h _ _).trans rfl

theorem recordsOf_leaveFired (h : .rollLow ≠ k) : recordsOf k (leaveFired s) = recordsOf k s :=
  (recordsOf_testRollLow h _).trans rfl

theorem recordsOf_announceFailure (h : .spliceFailed ≠ k) (n : Nat) (p : Option Pos) :
    recordsOf k (announceFailure n p s) = recordsOf k s := recordsOf_raise_ne h _ _

end

/-- The planner's own signals tell no master of a lost port. -/
theorem recordsOf_masterLost_plannerSignal (g : Sig) (s : State) (h : plannerSignal g = true) :
    recordsOf .masterLost (handle g s).1 = recordsOf .masterLost s := by
  cases g
  case search b =>
    show recordsOf .masterLost (search b s).1 = _
    unfold search; dsimp only; split
    · exact recordsOf_schedule _ (by decide) _
    · rfl
    · split
      · rfl
      · split
        · rfl
        · exact recordsOf_schedule _ (by decide) _
    · split <;> rfl
    all_goals rfl
  case deadline =>
    show recordsOf .masterLost (deadlineTest s).1 = _
    unfold deadlineTest; split
    · split
      · exact recordsOf_forceSplice s (by decide)
      · rfl
    · rfl
  case approach =>
    show recordsOf .masterLost (approachTest s).1 = _
    unfold approachTest; split
    · split <;> rfl
    · rfl
  case fire =>
    show recordsOf .masterLost (fireTest s).1 = _
    unfold fireTest; split
    · split <;> rfl
    · rfl
  case window =>
    show recordsOf .masterLost (windowTest s).1 = _
    unfold windowTest; split
    · split
      · exact (recordsOf_leaveFired _ (by decide)).trans (recordsOf_announceFailure _ (by decide) _ _)
      · rfl
    · rfl
  case dueExpiry =>
    show recordsOf .masterLost (dueExpiryTest s).1 = _
    unfold dueExpiryTest; split
    · rfl
    · split <;> rfl
  case jointPassed x =>
    show recordsOf .masterLost (jointPassed x s).1 = _
    unfold jointPassed; split <;> rfl
  case rollOut =>
    show recordsOf .masterLost (rollOutTest s).1 = _
    unfold rollOutTest; dsimp only; split
    · exact recordsOf_testRollLow (by decide) s
    · split <;> exact recordsOf_testRollLow (by decide) s
  case cancelSplice c =>
    show recordsOf .masterLost (withdrawSplice c s).1 = _
    unfold withdrawSplice; split
    · refine (recordsOf_testRollLow (by decide) _).trans ?_
      cases c with
      | none => rfl
      | some c => exact recordsOf_announceFailure _ (by decide) _ _
    · rfl
  all_goals cases h

/-- No cascade tells a master of a lost port (R18): only the expiry's own effect does. -/
theorem recordsOf_masterLost_settle (w : Work) : recordsOf .masterLost (settle w) = recordsOf .masterLost w.1 := by
  have hside : ∀ {s u : State}, aside u = aside s → recordsOf .masterLost u = recordsOf .masterLost s :=
    fun h => congrArg (fun a => a.2.2.1) h
  refine settle_same (recordsOf .masterLost) (fun s => hside (aside_flagJoints s)) (fun g s => ?_) w
  cases hg : plannerSignal g with
  | false => exact hside (aside_handle g s hg)
  | true => exact recordsOf_masterLost_plannerSignal g s hg

/-- An IDLE planner with no joint due takes none of its signals, the test of the roll's end apart. -/
theorem handle_idlePlanner {g : Sig} {s : State} (hg : plannerSignal g = true) (ht : tripSignal g = false)
    (hs : s.roll.planner.state = .idle) (hj : s.roll.planner.jointDue = none) : handle g s = quiet s := by
  cases g
  case rollOut => cases ht
  case search b => simp [handle, search, hs]
  case deadline => simp [handle, deadlineTest, hs]
  case approach => simp [handle, approachTest, hs]
  case fire => simp [handle, fireTest, hs]
  case window => simp [handle, windowTest, hs]
  case dueExpiry => simp [handle, dueExpiryTest, hj]
  case jointPassed x => simp [handle, jointPassed, hj]
  case cancelSplice c => simp [handle, withdrawSplice, cancellable, hs]
  all_goals cases hg

/-! ### Cascades without a trip -/

/-- A law kept by every signal but a trip survives the rest of any cascade that holds no trip. -/
theorem cascade_keeps_tripFree {P : State → Prop} (hflag : ∀ s, P s → P (flagJoints s))
    (hhandle : ∀ g s, tripSignal g = false → P s → P (handle g s).1) (n : Nat) (l : List Sig) (s : State) (h : P s)
    (hl : tripFree l = true) : P (cascade n l s) := by
  refine cascade_induct (P := fun l s => tripFree l = true ∧ P s) (fun _ _ h => h.2) ?_ n l s ⟨hl, h⟩
  rintro g rest u ⟨hgs, hu⟩
  obtain ⟨hg, hrest⟩ : tripSignal g = false ∧ tripFree rest = true := by simpa [tripFree] using hgs
  refine ⟨?_, hflag _ (hhandle g u hg hu)⟩
  simp only [tripFree, List.all_append, Bool.and_eq_true]
  exact ⟨tripFree_handle g u hg, hrest⟩

/-- With the planner IDLE and no joint due, a cascade without a trip leaves the planner and the records aside. -/
theorem aside_cascade_idle {n : Nat} {l : List Sig} {s : State} (hl : tripFree l = true)
    (hs : s.roll.planner.state = .idle) (hj : s.roll.planner.jointDue = none) :
    aside (cascade n l s) = aside s := by
  refine cascade_keeps_tripFree (P := fun u => aside u = aside s) (fun u hu => (aside_flagJoints u).trans hu) ?_ n l s
    rfl hl
  intro g u hg hu
  cases hp : plannerSignal g with
  | false => exact (aside_handle g u hp).trans hu
  | true =>
    have hplan : u.roll.planner = s.roll.planner := congrArg Prod.fst hu
    rw [handle_idlePlanner hp hg (by rw [hplan, hs]) (by rw [hplan, hj])]
    exact hu

/-- A cascade of one signal: the signal, then what follows from it. -/
theorem settle_one (g : Sig) (s : State) :
    settle (s, [g]) =
      cascade (cascadeFuel - 1) (handle g (flagJoints s)).2 (flagJoints (handle g (flagJoints s)).1) := by
  show cascade cascadeFuel [g] (flagJoints s) = _
  rw [cascade_cons (by decide), List.append_nil]

/-! ### A withdrawn splice (R166, R167) -/

/-- What the withdrawal of an armed splice leaves of the planner. -/
theorem withdrawSplice_planner {s : State} (c : Option FailCause) (h : cancellable s.roll.planner.state = true) :
    ∃ st, (withdrawSplice c s).1.roll.planner =
        { s.roll.planner with
          state := .idle, pFire := none, stretch := none, jointDue := none, freeze := none, status := st } ∧
      st.isSome = s.roll.planner.status.isSome := by
  unfold withdrawSplice
  rw [if_pos h]
  cases c <;> exact testRollLow_planner _

theorem withdrawSplice_spliceLimit {s : State} (c : Option FailCause) (h : cancellable s.roll.planner.state = true) :
    (withdrawSplice c s).1.sup.spliceLimit = false := by
  unfold withdrawSplice
  rw [if_pos h]
  cases c <;> exact testRollLow_spliceLimit _

theorem withdrawSplice_signals (c : Option FailCause) (s : State) : tripFree (withdrawSplice c s).2 = true := by
  unfold withdrawSplice; split <;> rfl

/-- SPLICE_FAILED with its cause reaches every port (R24, R167). -/
theorem withdrawSplice_failed {s : State} (c : FailCause) (h : cancellable s.roll.planner.state = true) :
    recordsOf .spliceFailed (withdrawSplice (some c) s).1 =
      (recordsOf .spliceFailed s).map
        (Option.map (noteRecord (byte1 (failCode c) ++ posBytes (s.roll.planner.pFire.getD 0)))) := by
  unfold withdrawSplice
  rw [if_pos h]
  refine (recordsOf_testRollLow (by decide) _).trans ?_
  exact recordsOf_raise_same .spliceFailed _ _

/-- A splice that cannot be withdrawn is left as it is. -/
theorem withdrawSplice_quiet {s : State} (c : Option FailCause) (h : cancellable s.roll.planner.state = false) :
    withdrawSplice c s = quiet s := by
  unfold withdrawSplice; rw [h]; rfl

/-- An armed splice withdrawn, with all that follows, leaves what the withdrawal itself leaves. -/
theorem aside_settle_cancel {s : State} (c : Option FailCause) (h : cancellable s.roll.planner.state = true) :
    aside (settle (s, [.cancelSplice c])) = aside (withdrawSplice c (flagJoints s)).1 := by
  have hflag : (flagJoints s).roll.planner = s.roll.planner := congrArg Prod.fst (aside_flagJoints s)
  obtain ⟨st, hplan, -⟩ := withdrawSplice_planner (s := flagJoints s) c (by rw [hflag]; exact h)
  have hafter : (flagJoints (withdrawSplice c (flagJoints s)).1).roll.planner =
      (withdrawSplice c (flagJoints s)).1.roll.planner := congrArg Prod.fst (aside_flagJoints _)
  rw [settle_one]
  show aside (cascade _ (withdrawSplice c (flagJoints s)).2 (flagJoints (withdrawSplice c (flagJoints s)).1)) = _
  rw [aside_cascade_idle (withdrawSplice_signals c _) (by rw [hafter, hplan]) (by rw [hafter, hplan]), aside_flagJoints]

/-- Nothing follows from the cancellation of a splice that is not armed. -/
theorem settle_cancel_quiet {s : State} (c : Option FailCause) (h : cancellable s.roll.planner.state = false) :
    settle (s, [.cancelSplice c]) = flagJoints (flagJoints s) := by
  have hflag : (flagJoints s).roll.planner = s.roll.planner := congrArg Prod.fst (aside_flagJoints s)
  rw [settle_one]
  show cascade _ (withdrawSplice c (flagJoints s)).2 (flagJoints (withdrawSplice c (flagJoints s)).1) = _
  rw [withdrawSplice_quiet c (by rw [hflag]; exact h)]
  exact cascade_nil _ _

/-! ### A line that stops (R181, R182) -/

/-- The Supervisor of a line that is STOPPING or STOPPED, its speeds 0 and no stop pending. -/
def Halted (v : Supervisor) : Prop :=
  (v.line = .stopping ∨ v.line = .stopped) ∧ v.vPlan = 0 ∧ v.vRef = 0 ∧ v.speedOut = 0 ∧ v.stopPending = false

/-- Being halted is a matter of the line's motion. -/
theorem halted_of_motion {s t : State} (h : motion t = motion s) (hs : Halted s.sup) : Halted t.sup := by
  have hm : Halted (motion s).1 := hs
  rw [← h] at hm
  exact hm

theorem motion_setLine (l : LineState) (s : State) :
    motion (setLine l s) = motion (s.onSup fun v => { v with prev := v.line, line := l }) := by
  simp [setLine]

theorem halted_commandHood (down : Bool) {s : State} (h : Halted s.sup) : Halted (commandHood down s).sup := by
  obtain ⟨hline, hplan, href, hout, hpend⟩ := h
  unfold commandHood deriveHood
  dsimp only
  split
  · exact ⟨hline, hplan, href, hout, hpend⟩
  · refine ⟨hline, hplan, ?_, ?_, hpend⟩
    · show (if _ then 0 else s.sup.vRef) = 0
      rw [href, ite_self]
    · show (if _ then 0 else s.sup.speedOut) = 0
      rw [hout, ite_self]

/-- A line state entered with the speeds dropped and no stop pending. -/
theorem halted_setLine {l : LineState} {s : State} (hl : l = .stopping ∨ l = .stopped) (hplan : s.sup.vPlan = 0)
    (href : s.sup.vRef = 0) (hout : s.sup.speedOut = 0) (hpend : s.sup.stopPending = false) :
    Halted (setLine l s).sup :=
  halted_of_motion (s := s.onSup fun v => { v with prev := v.line, line := l }) (motion_setLine l s)
    ⟨hl, hplan, href, hout, hpend⟩

theorem halted_enterStopping (s : State) : Halted (enterLine .stopping s).1.sup := by
  simp only [enterLine]
  exact halted_setLine (Or.inl rfl) rfl rfl rfl rfl

theorem halted_enterStopped {s : State} (h : s.sup.stopPending = false) : Halted (enterLine .stopped s).1.sup := by
  simp only [enterLine]
  refine halted_of_motion (motion_leaveBoundaryHold _) (halted_commandHood false ?_)
  exact halted_setLine (Or.inr rfl) rfl rfl rfl h

/-- No signal but a trip moves a halted line on. -/
theorem halted_handle {g : Sig} {s : State} (hg : tripSignal g = false) (h : Halted s.sup) :
    Halted (handle g s).1.sup := by
  cases hl : lineSignal g with
  | false => exact halted_of_motion (motion_handle g s hl) h
  | true =>
    have hline := h.1
    cases g
    case trip c => cases hg
    case hoodSeen =>
      have hq : hoodSeen s = quiet s := if_neg fun hc => by rcases hline with hs | hs <;> simp [hs] at hc
      exact (congrArg (fun w => Halted w.1.sup) hq).mpr h
    case warm =>
      have hq : warmTest s = quiet s := if_neg fun hc => by rcases hline with hs | hs <;> simp [hs] at hc
      exact (congrArg (fun w => Halted w.1.sup) hq).mpr h
    case causes =>
      have hq : causesChanged s = quiet s := by rcases hline with hs | hs <;> simp [causesChanged, hs]
      exact (congrArg (fun w => Halted w.1.sup) hq).mpr h
    case reportEnd =>
      have hq : reportEnd s = quiet s := if_neg (by simp [h.2.2.2.2])
      exact (congrArg (fun w => Halted w.1.sup) hq).mpr h
    case stopCheck =>
      show Halted (stopCheck s).1.sup
      unfold stopCheck
      split
      · exact halted_enterStopped h.2.2.2.2
      · exact h
    all_goals cases hl

/-- A stop taken by a moving line (R19, R181). -/
theorem stopNow_moving {s : State}
    (h : s.sup.line = .warming ∨ s.sup.line = .lowering ∨ s.sup.line = .running ∨ s.sup.line = .holding) :
    stopNow s = ((enterLine .stopping s).1, [.settled false, .formerPause, .stopCheck]) := by
  rcases h with h | h | h | h <;> simp only [stopNow, h] <;> rfl

theorem stopNow_still {s : State} (h : s.sup.line = .stopped ∨ s.sup.line = .tripped ∨ s.sup.line = .stopping) :
    stopNow s = quiet s := by
  rcases h with h | h | h <;> simp only [stopNow, h]

theorem aside_stopNow (s : State) : aside (stopNow s).1 = aside s := by
  unfold stopNow; split <;> simp [quiet, followedBy]

theorem ports_stopNow (s : State) : (stopNow s).1.ports = s.ports := by
  have hk : kept (stopNow s).1 = kept s := by unfold stopNow; split <;> simp [quiet, followedBy]
  exact congrArg Kept.ports hk

/-- A moving line that is stopped ends halted, whatever follows. -/
theorem halted_settle_stopNow {s : State}
    (h : s.sup.line = .warming ∨ s.sup.line = .lowering ∨ s.sup.line = .running ∨ s.sup.line = .holding) :
    Halted (settle (stopNow s)).sup := by
  rw [stopNow_moving h]
  exact settle_keeps_tripFree (P := fun u => Halted u.sup) (fun u hu => halted_of_motion (motion_flagJoints u) hu)
    (fun _ _ hg hu => halted_handle hg hu) _ (halted_enterStopping s) rfl

/-! #### A stop during a stroke -/

/-- FEED to RETRACT: the states a stop lets run on (R74). -/
def strokeStates : List FormerState := [.feed, .tuck, .press, .retract]

/-- The signals of a stop that finds the former in a stroke. -/
def stopSignals : List Sig := [.settled false, .formerPause, .stopCheck, .warm, .bridge]

theorem flagJoints_former (s : State) : (flagJoints s).former = s.former := by
  obtain ⟨f, -, hf⟩ := flagJoints_eq s
  rw [hf]; rfl

theorem handTarget_former (t : Nat) (z : Fin 4) (s : State) : (handTarget t z s).former = s.former := by
  unfold handTarget; split <;> rfl

theorem setLine_former (l : LineState) (s : State) : (setLine l s).former = s.former := by
  simp [setLine, retarget, zonesInOrder, handTarget_former, raise]

theorem reportSettled_former (b : Bool) (s : State) : (reportSettled b s).1.former = s.former := by
  unfold reportSettled; dsimp only; split
  · rfl
  · dsimp only; split <;> rfl

theorem reportSettled_signals (b : Bool) (s : State) :
    (reportSettled b s).2 = [] ∨ (reportSettled b s).2 = [.warm, .bridge] := by
  unfold reportSettled; dsimp only; split
  · exact Or.inl rfl
  · exact Or.inr rfl

/-- The signals of a stop leave a stroke, and the STOPPING line, as they are. -/
theorem stroke_handle {g : Sig} {s : State} (hg : g ∈ stopSignals) (hst : s.former.state ∈ strokeStates)
    (hl : s.sup.line = .stopping) :
    (handle g s).1.former = s.former ∧ motion (handle g s).1 = motion s ∧
      ∀ g' ∈ (handle g s).2, g' ∈ stopSignals := by
  have quietly : handle g s = quiet s →
      (handle g s).1.former = s.former ∧ motion (handle g s).1 = motion s ∧
        ∀ g' ∈ (handle g s).2, g' ∈ stopSignals := fun h => by rw [h]; exact ⟨rfl, rfl, by simp [quiet]⟩
  simp only [strokeStates, List.mem_cons, List.not_mem_nil, or_false] at hst
  simp only [stopSignals, List.mem_cons, List.not_mem_nil, or_false] at hg
  rcases hg with rfl | rfl | rfl | rfl | rfl
  · refine ⟨reportSettled_former _ s, motion_reportSettled s _, fun g' hg' => ?_⟩
    change g' ∈ (reportSettled false s).2 at hg'
    rcases reportSettled_signals false s with h | h <;> rw [h] at hg'
    · cases hg'
    · simp only [List.mem_cons, List.not_mem_nil, or_false] at hg'
      rcases hg' with rfl | rfl <;> decide
  · exact quietly (by rcases hst with h | h | h | h <;> simp [handle, formerPause, h])
  · exact quietly (by rcases hst with h | h | h | h <;> simp [handle, stopCheck, h])
  · exact quietly (by simp [handle, warmTest, hl])
  · exact quietly (by rcases hst with h | h | h | h <;> simp [handle, bridgeTest, h])

/-- The Supervisor's own part of a stop (R181). -/
def stopTaken (v : Supervisor) : Supervisor :=
  { dropSpeed v with stopPending := false, prev := v.line, line := .stopping }

theorem motion_enterStopping (s : State) : motion (enterLine .stopping s).1 = motion (s.onSup stopTaken) := by
  simp only [enterLine]
  rw [motion_setLine]
  rfl

theorem enterStopping_former (s : State) : (enterLine .stopping s).1.former = s.former := by
  simp only [enterLine, setLine_former]
  rfl

/-- A stop lets the stroke in hand run on, the line STOPPING (R74, R182). -/
theorem settle_stopNow_stroke {s : State} (hst : s.former.state ∈ strokeStates)
    (h : s.sup.line = .warming ∨ s.sup.line = .lowering ∨ s.sup.line = .running ∨ s.sup.line = .holding) :
    (settle (stopNow s)).former = s.former ∧ motion (settle (stopNow s)) = motion (s.onSup stopTaken) := by
  have hline : ∀ u : State, motion u = motion (s.onSup stopTaken) → u.sup.line = .stopping :=
    fun u hu => congrArg (fun m => m.1.line) hu
  have hsignals : ∀ g ∈ [Sig.settled false, .formerPause, .stopCheck], g ∈ stopSignals :=
    fun _ => List.mem_append_left [Sig.warm, Sig.bridge]
  rw [stopNow_moving h]
  refine settle_keeps_of (A := fun g => g ∈ stopSignals)
    (P := fun u => u.former = s.former ∧ motion u = motion (s.onSup stopTaken)) ?_ ?_
    ((enterLine .stopping s).1, [.settled false, .formerPause, .stopCheck])
    ⟨enterStopping_former s, motion_enterStopping s⟩ hsignals
  · exact fun u hu => ⟨(flagJoints_former u).trans hu.1, (motion_flagJoints u).trans hu.2⟩
  · rintro g u hg ⟨hf, hmu⟩
    obtain ⟨hf', hm', hs'⟩ := stroke_handle hg (by rw [hf]; exact hst) (hline u hmu)
    exact ⟨⟨hf'.trans hf, hm'.trans hmu⟩, hs'⟩

/-! ### The loss of a port (R18 to R21) -/

/-- A presence timer that expires: the port is lost, and the other two are told (R18). -/
def presenceLost (p : Port) (s : State) : State :=
  raiseExcept p .masterLost (byte1 (portNumber p)) (s.onPort p fun q => { q with lost := true, timer := none })

theorem exec_presenceExpiry {p : Port} {s : State} (h : (s.ports.get p).timer ≠ none) :
    exec (.presenceExpiry p) s = .next (settle (portLost p (presenceLost p s))) :=
  congrArg Host.Outcome.next (if_pos (Option.isSome_iff_ne_none.mpr h))

section
variable (p : Port) (s : State)

theorem presenceLost_router (q : Port) :
    (presenceLost p s).router.get q =
      if q = p then s.router.get p else notePort .masterLost (byte1 (portNumber p)) (s.router.get q) := by
  simp [presenceLost, raiseExcept]

theorem recordsOf_presenceLost_ne {k : EventKind} (h : .masterLost ≠ k) :
    recordsOf k (presenceLost p s) = recordsOf k s :=
  Three.ext_get fun q => by
    rw [recordsOf_get, recordsOf_get, presenceLost_router]
    split
    · next hq => rw [hq]
    · exact recordOf_notePort_ne h _ _

theorem jointFlags_presenceLost (h : JointFlags s) : JointFlags (presenceLost p s) := h

theorem ports_portLost : (portLost p s).1.ports = s.ports := by
  cases p
  case line => exact ports_stopNow s
  case pattern => rfl
  case roll => show (withdrawCut s).ports = _; unfold withdrawCut; split <;> rfl

theorem aside_withdrawCut : aside (withdrawCut s) = aside s := by unfold withdrawCut; split <;> rfl

theorem withdrawCut_planner : (withdrawCut s).roll.planner = s.roll.planner := congrArg Prod.fst (aside_withdrawCut s)

theorem aside_portLost : aside (portLost p s).1 = aside s := by
  cases p
  case line => exact aside_stopNow s
  case pattern => rfl
  case roll => exact aside_withdrawCut s

/-- After all that follows from it, MASTER_LOST stands where the expiry put it. -/
theorem recordsOf_masterLost_portLost :
    recordsOf .masterLost (settle (portLost p (presenceLost p s))) = recordsOf .masterLost (presenceLost p s) :=
  (recordsOf_masterLost_settle _).trans (congrArg (fun a => a.2.2.1) (aside_portLost p (presenceLost p s)))

end

theorem withdrawCut_cut (s : State) :
    withdrawCut s = { s with roll := { s.roll with
      cut := if s.roll.cut.state = .waiting then
        { s.roll.cut with state := .idle, target := none, point := none, midpoint := false } else s.roll.cut } } := by
  unfold withdrawCut; split <;> rfl

theorem cancellable_iff (st : PlannerState) :
    cancellable st = true ↔ st = .planning ∨ st = .scheduled ∨ st = .approach := by
  cases st <;> decide

theorem portLost_roll (s : State) : portLost .roll s = (withdrawCut s, [.cancelSplice (some .masterLost)]) := rfl

/-- The withdrawn splice of a lost roll port, with all that follows, seen from before the loss (R20, R167). -/
theorem aside_rollLost {s : State} (h : cancellable s.roll.planner.state = true) :
    ∃ st, (settle (portLost .roll (presenceLost .roll s))).roll.planner =
        { s.roll.planner with
          state := .idle, pFire := none, stretch := none, jointDue := none, freeze := none, status := st } ∧
      st.isSome = s.roll.planner.status.isSome ∧
      (settle (portLost .roll (presenceLost .roll s))).sup.spliceLimit = false ∧
      recordsOf .spliceFailed (settle (portLost .roll (presenceLost .roll s))) =
        (recordsOf .spliceFailed s).map
          (Option.map (noteRecord ([3] ++ posBytes (s.roll.planner.pFire.getD 0)))) := by
  have hbefore : aside (flagJoints (withdrawCut (presenceLost .roll s))) = aside (presenceLost .roll s) :=
    (aside_flagJoints _).trans (aside_withdrawCut _)
  have hplan : (flagJoints (withdrawCut (presenceLost .roll s))).roll.planner = s.roll.planner :=
    congrArg Prod.fst hbefore
  have hfailed :
      recordsOf .spliceFailed (flagJoints (withdrawCut (presenceLost .roll s))) = recordsOf .spliceFailed s :=
    (congrArg (fun a => a.2.2.2) hbefore).trans (recordsOf_presenceLost_ne .roll s (by decide))
  have hc : cancellable (flagJoints (withdrawCut (presenceLost .roll s))).roll.planner.state = true := by
    rw [hplan]; exact h
  have hafter := aside_settle_cancel (s := withdrawCut (presenceLost .roll s)) (some .masterLost)
    (by rw [withdrawCut_planner]; exact h)
  obtain ⟨st, hst, hsome⟩ := withdrawSplice_planner (some .masterLost) hc
  rw [portLost_roll]
  refine ⟨st, (congrArg Prod.fst hafter).trans (hst.trans (by rw [hplan])), hsome.trans (by rw [hplan]),
    (congrArg (fun a => a.2.1) hafter).trans (withdrawSplice_spliceLimit _ hc),
    (congrArg (fun a => a.2.2.2) hafter).trans ((withdrawSplice_failed _ hc).trans ?_)⟩
  rw [hfailed, hplan]
  rfl

/-- The loss of a roll port with no splice armed withdraws the cut and nothing else (R20). -/
theorem settle_rollLost_unarmed {s : State} (h : cancellable s.roll.planner.state = false) :
    settle (portLost .roll (presenceLost .roll s)) = flagJoints (flagJoints (withdrawCut (presenceLost .roll s))) := by
  refine settle_cancel_quiet _ ?_
  rw [withdrawCut_planner]
  exact h

/-- MASTER_LOST after the loss, port by port: told to every port but the lost one (R18). -/
theorem masterLost_told (p q : Port) (s : State) :
    recordOf .masterLost ((settle (portLost p (presenceLost p s))).router.get q) =
      recordOf .masterLost
        (if q = p then s.router.get p else notePort .masterLost [BitVec.ofNat 8 (portNumber p)] (s.router.get q)) := by
  have h := congrArg (fun t => t.get q) (recordsOf_masterLost_portLost p s)
  rw [recordsOf_get, recordsOf_get, presenceLost_router] at h
  exact h

end Sys2Proof.Machine
end

section
/-! PROOFS. The statements of chapter 1: station ports and requests. -/

namespace Sys2Proof.Proofs

open Sys2Proof.Machine Sys2Proof.Safety

/-- Settles O4. -/
theorem incompleteFrame : Obligations.IncompleteFrame := fun p _ s =>
  ⟨fun h => exec_incompleteFrame p s (parseFrame_keptBytes_none h), rfl⟩

/-- Settles O5. -/
theorem unknownKind : Obligations.UnknownKind := fun _ _ s hk hp => exec_unknownKindFrame s hk hp

/-- Settles O7: NOP's block answers OK and does nothing. -/
theorem nopTaken : Obligations.NopTaken := fun _ s hp =>
  (exec_nop s hp).trans (congrArg _ (answeredBy_same (a := ⟨.ok, []⟩) rfl))

/-- Settles O6: the checks of `serve` in their order, each row with its own line of the request table. -/
theorem requestChecks : Obligations.RequestChecks := by
  intro c r s h
  obtain ⟨lengthOk, block, hlen, hexec⟩ := exec_request s h
  rw [hexec]
  refine ⟨fun h60 h255 => ?tooLong, fun hp h0 h1 => ?foreign, fun hp ha hl => ?length⟩
  case tooLong => rw [serve_tooLong s h60 h255]
  case foreign => rw [serve_notPermitted s hp h0 h1]
  case length =>
    have hbad : lengthOk r.frame.payload.length = false := by
      rw [← Bool.not_eq_true]
      exact fun ht => hl (hlen _ hp ht)
    rw [serve_badLength s hp ha hbad]

/-- Settles O3: `State.powerOn`, block by block. -/
theorem deviceReset : Obligations.DeviceReset := by
  intro s
  refine ⟨{ State.powerOn s.pins with pending := s.pending, free := s.free }, rfl, ⟨rfl, rfl, rfl⟩,
    powerOn_port s.pins, fun p => ?router, fun p k d => ?attention, powerOn_slot s.pins, rfl, rfl, rfl, rfl,
    powerOn_zone s.pins, rfl,
    ⟨fun i => ?recipe, rfl, rfl, rfl, rfl, rfl, rfl⟩, powerOn_zoneMonitor s.pins,
    ⟨rfl, rfl, rfl, rfl, rfl, rfl, rfl, rfl, rfl, rfl, rfl⟩, rfl, rfl, rfl, rfl⟩
  case router =>
    show (RouterPort.floor ((State.powerOn s.pins).router.get p) = 0 ∧ _)
    rw [powerOn_router]
    exact ⟨rfl, rfl, by decide⟩
  case attention =>
    show attention (notePort k d ((State.powerOn s.pins).router.get p)) = true
    rw [powerOn_router]
    exact attention_notePort_reset k d
  case recipe => exact congrArg Recipe.valid (powerOn_recipe s.pins i)

/-- Settles O10: the block's check of the line port, then its change of the answered port. -/
theorem presenceSet : Obligations.PresenceSet := by
  intro p v extra s
  dsimp only
  have hblock := exec_presenceSet (f := ⟨p, [v], extra⟩) s (by simp) rfl
  have hv : u8 [v] 0 = 0 ↔ v = 0 := by simp [u8, ← BitVec.toNat_inj]
  refine ⟨fun pl hp hl => ?length, fun hw => ?refused, fun hw => ?taken⟩
  case length =>
    exact congrArg Host.Outcome.next (serve_badLength s hp (Or.inl rfl) (by simpa [exactly] using hl))
  case refused =>
    refine hblock.trans (congrArg _ (answeredBy_same (a := ⟨.wrongState, []⟩) ?_))
    exact if_pos ⟨hw.1, hv.mpr hw.2.1, hw.2.2⟩
  case taken =>
    have hn : ¬(p = .line ∧ u8 [v] 0 = 0 ∧ (received 0x06 ⟨p, [v], extra⟩ s).sup.line ≠ .stopped) := by
      rwa [hv]
    have hz : v.toNat = 0 ↔ v = 0 := hv
    rw [hblock, answeredBy, Sys2Proof.Machine.presenceSet, if_neg hn]
    simp [okWith, respond, State.onPort, received, countFrame, shiftIn, answeredPort, refreshed, hz, u8]

/-- Settles O9: the block sees the asking port with its frame counted and its lost flag clear. -/
theorem portView : Obligations.PortView := by
  intro p i j extra s
  refine exec_viewRow_same (by simp [isViewRow]) rfl ?_
  show okWith (portViewBytes p (received 0x02 ⟨p, [7, i, j], extra⟩ s)) _ = _
  cases p <;>
    simp [portViewBytes, portBytes, received, countFrame, shiftIn, Three.get, Three.set, okWith]

/-- Settles O8: the checks and each view, on the received frame's state, which differs from `s` in its ports only. -/
theorem statusRead : Obligations.StatusRead := by
  intro c p v i j extra s f hc
  have same : ∀ {st : Status} {payload : List Byte},
      Machine.statusRead p [v, i, j] (received 0x02 f s) = (received 0x02 f s, ⟨st, payload⟩) →
        exec c s = .next (answered 0x02 f st payload s) := exec_viewRow_same hc rfl
  refine ⟨fun hv => same (statusRead_badView hv), ?line, ?badZone, ?zone, ?former, ?queue, ?noPanel, ?panel, ?map,
    ?splice, ?spliceUnknown⟩
  case line => rintro rfl; exact same (congrArg (okWith · _) (lineViewBytes_eq _))
  case badZone => rintro rfl hi; exact same (statusRead_badZone hi)
  case zone => rintro z rfl hi; exact same (statusRead_zone z hi)
  case former =>
    rintro rfl
    refine same (congrArg (okWith · _) ((formerViewBytes_eq _).trans ?_))
    rw [passedLimit_eq]
    rfl
  case queue => rintro rfl; exact same (congrArg (okWith · _) (queueViewBytes_eq _))
  case noPanel => rintro rfl hi; exact same (statusRead_noPanel hi)
  case panel => rintro before r after rfl ht hb hn; exact same (statusRead_panel ht hb hn)
  case map => rintro rfl; exact same (congrArg (okWith · _) (mapViewBytes_eq _))
  case splice =>
    rintro a b rfl hs
    refine same ?_
    show okWith (spliceViewBytes (received 0x02 f s)) (afterSpliceView (received 0x02 f s)) = _
    rw [afterSpliceView_known (s := received 0x02 f s) hs, spliceViewBytes_eq]
    exact congrArg (okWith · _) (spliceLayout_known hs _ _ a b)
  case spliceUnknown =>
    rintro rfl hs
    have hblock : Machine.statusRead p [6, i, j] (received 0x02 f s) =
        ((received 0x02 f s).nextFree,
          ⟨.ok, spliceLayout s (Config.remainingWhenUnknown s.free) (Config.deadlineWhenUnknown s.free)⟩) := by
      show okWith (spliceViewBytes (received 0x02 f s)) (afterSpliceView (received 0x02 f s)) = _
      rw [afterSpliceView_unknown (s := received 0x02 f s) hs, spliceViewBytes_eq]
      rfl
    exact ⟨_, _, (exec_viewRow s hc rfl).trans (congrArg _ (answeredBy_eq hblock rfl))⟩

/-- Settles O11: the cascade after each port's loss, with the records and the planner set aside from it. -/
theorem presenceExpiry : Obligations.PresenceExpiry := by
  intro p s hrun told l k plan
  refine ⟨settle (portLost p (presenceLost p s)), exec_presenceExpiry hrun,
    (settle_ports _).trans (ports_portLost p _), fun q hq => ?told, ?own, ?pattern, ?lineStill, ?lineMoving,
    ?cut, ?idle, ?unarmed, ?armed⟩
  case told => exact (masterLost_told p q s).trans (by rw [if_neg hq]; rfl)
  case own => exact (masterLost_told p p s).trans (by rw [if_pos rfl]; rfl)
  case pattern =>
    rintro rfl
    obtain ⟨f, -, hf⟩ := flagJoints_eq (presenceLost .pattern s)
    have ht : settle (portLost .pattern (presenceLost .pattern s)) = flagJoints (presenceLost .pattern s) :=
      settle_quiet _
    refine ⟨by rw [ht, hf]; rfl, by rw [ht, hf]; rfl, fun hj => ?_⟩
    rw [ht, flagJoints_self (jointFlags_presenceLost .pattern s hj)]
    rfl
  case lineStill =>
    rintro rfl hl
    obtain ⟨f, -, hf⟩ := flagJoints_eq (presenceLost .line s)
    have ht : settle (portLost .line (presenceLost .line s)) = flagJoints (presenceLost .line s) := by
      have hstop : stopNow (presenceLost .line s) = quiet (presenceLost .line s) := stopNow_still (by tauto)
      exact (congrArg settle hstop).trans (settle_quiet _)
    refine ⟨by rw [ht, hf]; rfl, by rw [ht, hf]; rfl, fun hj => ?_⟩
    rw [ht, flagJoints_self (jointFlags_presenceLost .line s hj)]
    rfl
  case lineMoving =>
    rintro rfl hl
    obtain ⟨hline, hplan, href, hout, hpend⟩ := halted_settle_stopNow (s := presenceLost .line s) hl
    refine ⟨hline, hplan, href, hout, hpend, fun hst => ?_⟩
    obtain ⟨hf, hm⟩ := settle_stopNow_stroke (s := presenceLost .line s) hst hl
    exact ⟨congrArg (fun m => m.1.line) hm, congrArg (fun m => m.1.prev) hm, congrArg Former.state hf,
      congrArg (fun m => m.1.hoodDelayTimer) hm⟩
  case cut =>
    rintro rfl hk
    refine (settle_cutState _).trans ?_
    show (withdrawCut (presenceLost .roll s)).roll.cut.state = .idle
    rw [withdrawCut, if_pos (show (presenceLost .roll s).roll.cut.state = .waiting from hk)]
    rfl
  case idle =>
    rintro rfl hp
    cases hc : cancellable s.roll.planner.state with
    | true =>
      obtain ⟨st, hplan, -⟩ := aside_rollLost hc
      rw [hplan]
    | false =>
      have hidle : s.roll.planner.state = .idle := by
        cases hs : s.roll.planner.state with
        | idle => rfl
        | fired => exact absurd hs hp
        | planning | scheduled | approach => rw [hs] at hc; cases hc
      have hside :
          aside (flagJoints (flagJoints (withdrawCut (presenceLost .roll s)))) = aside (presenceLost .roll s) := by
        rw [aside_flagJoints, aside_flagJoints, aside_withdrawCut]
      rw [settle_rollLost_unarmed hc]
      exact (congrArg (fun a => a.1.state) hside).trans hidle
  case unarmed =>
    rintro rfl hp hj
    have hc : cancellable s.roll.planner.state = false := by rcases hp with h | h <;> rw [h] <;> rfl
    have hflags : JointFlags (withdrawCut (presenceLost .roll s)) := by rw [withdrawCut_cut]; exact hj
    rw [settle_rollLost_unarmed hc, flagJoints_self hflags, flagJoints_self hflags, withdrawCut_cut]
    rfl
  case armed =>
    rintro rfl hp
    obtain ⟨st, hplan, hsome, hlimit, hfailed⟩ := aside_rollLost ((cancellable_iff _).mpr hp)
    rw [hplan]
    refine ⟨rfl, rfl, rfl, rfl, hsome, hlimit, fun q => ?_⟩
    have hq := congrArg (fun t => t.get q) hfailed
    rw [recordsOf_get, Three.get_map, recordsOf_get] at hq
    exact hq.trans (recordOf_notePort_same .spliceFailed _ _).symm

end Sys2Proof.Proofs
end

section
/-! SUPPORT. The Event Router: the selection of EVENT_TAKE, the router's own requests, and the law of its records.
Outside those requests and a device reset, whatever a step sets off only tells the router of occurrences. -/

namespace Sys2Proof.Machine

open Sys2Proof.Safety

/-! ### Attention and the records (R27, R28) -/

theorem attention_iff (r : RouterPort) :
    attention r = true ↔ ∃ e ∈ r.records, e.flag = true ∧ r.floor < e.level := by
  simp [attention]

theorem raise_port (k : EventKind) (d : List Byte) (s : State) (p : Port) :
    (raise k d s).router.get p = notePort k d (s.router.get p) := Three.get_map _ _ _

theorem noteRecord_unrouted {e : EventRecord} (d : List Byte) (h : e.level = 0) : noteRecord d e = e := if_pos h

theorem noteRecord_routed {e : EventRecord} (d : List Byte) (h : e.level ≠ 0) :
    noteRecord d e =
      ⟨e.level, true, if e.flag then (if e.count < 255 then e.count + 1 else 255) else 1, detailBytes d⟩ := by
  have hcount : min 255 (e.count + 1) = if e.count < 255 then e.count + 1 else 255 := by split <;> omega
  rw [noteRecord, if_neg h, hcount]

theorem noteRecord_level (d : List Byte) (e : EventRecord) : (noteRecord d e).level = e.level := by
  unfold noteRecord; split <;> rfl

/-! ### The selection of EVENT_TAKE (R29) -/

/-- Kind `j` gives way to a record `e` of kind `i`: it is not pending, or of a lower level, or of the same level and no
lower number. -/
def GivesWay (records : List EventRecord) (i : Nat) (e : EventRecord) (j : Nat) : Prop :=
  ∀ e', records[j]? = some e' → e'.flag = true → e'.level < e.level ∨ (e'.level = e.level ∧ i ≤ j)

/-- `best` is the selection among the first `n` kinds: one to which they all give way, or none of them pending. -/
def SelectionOf (records : List EventRecord) (n : Nat) (best : Option Nat) : Prop :=
  match best with
  | none => ∀ j < n, ∀ e, records[j]? = some e → e.flag = false
  | some i => i < n ∧ ∃ e, records[i]? = some e ∧ e.flag = true ∧ ∀ j < n, GivesWay records i e j

/-- One more kind is looked at. -/
theorem selectionOf_preferred {records : List EventRecord} {n : Nat} {best : Option Nat} (hn : n < records.length)
    (h : SelectionOf records n best) : SelectionOf records (n + 1) (preferred best records n) := by
  obtain ⟨x, hx⟩ : ∃ x, records[n]? = some x := ⟨_, List.getElem?_eq_getElem hn⟩
  have hlast : ∀ {i e}, (x.flag = true → x.level < e.level ∨ (x.level = e.level ∧ i ≤ n)) →
      GivesWay records i e n := by
    intro i e hi e' he' hset
    cases hx.symm.trans he'
    exact hi hset
  simp only [preferred, hx]
  split
  · next hset =>
    cases best with
    | none =>
      refine ⟨Nat.lt_succ_self n, x, hx, hset, Nat.forall_lt_succ_right.mpr ⟨fun j hj e' he' hset' => ?_, ?_⟩⟩
      · rw [h j hj e' he'] at hset'
        cases hset'
      · exact hlast fun _ => Or.inr ⟨rfl, Nat.le_refl n⟩
    | some b =>
      obtain ⟨hb, e, he, heset, hway⟩ := h
      simp only [he, Option.map_some, Option.getD_some]
      split
      · next hlt =>
        refine ⟨Nat.lt_succ_self n, x, hx, hset, Nat.forall_lt_succ_right.mpr ⟨fun j hj e' he' hset' => ?_, ?_⟩⟩
        · rcases hway j hj e' he' hset' with h1 | h1
          · exact Or.inl (h1.trans hlt)
          · exact Or.inl (h1.1.trans_lt hlt)
        · exact hlast fun _ => Or.inr ⟨rfl, Nat.le_refl n⟩
      · next hge =>
        exact ⟨Nat.lt_succ_of_lt hb, e, he, heset, Nat.forall_lt_succ_right.mpr ⟨hway, hlast fun _ => by omega⟩⟩
  · next hclear =>
    cases best with
    | none =>
      refine Nat.forall_lt_succ_right.mpr ⟨h, fun e he => ?_⟩
      cases hx.symm.trans he
      exact Bool.eq_false_iff.mpr hclear
    | some b =>
      obtain ⟨hb, e, he, heset, hway⟩ := h
      exact ⟨Nat.lt_succ_of_lt hb, e, he, heset,
        Nat.forall_lt_succ_right.mpr ⟨hway, hlast fun hset => absurd hset hclear⟩⟩

/-- The kinds of `records` looked at in their order. -/
theorem selectionOf_foldl {records : List EventRecord} :
    ∀ n ≤ records.length,
      SelectionOf records n ((List.range n).foldl (fun best i => preferred best records i) none)
  | 0, _ => fun _ hj => absurd hj (Nat.not_lt_zero _)
  | n + 1, hn => by
    rw [List.range_succ, List.foldl_append]
    exact selectionOf_preferred hn (selectionOf_foldl n (Nat.le_of_succ_le hn))

theorem selectionOf_selectedKind (records : List EventRecord) :
    SelectionOf records records.length (selectedKind records) := selectionOf_foldl _ (Nat.le_refl _)

/-- With no kind pending none is selected (R29). -/
theorem selectedKind_none {records : List EventRecord} (h : ∀ e ∈ records, e.flag = false) :
    selectedKind records = none := by
  have hsel := selectionOf_selectedKind records
  cases hk : selectedKind records with
  | none => rfl
  | some b =>
    rw [hk] at hsel
    obtain ⟨-, e, he, hset, -⟩ := hsel
    rw [h e (List.mem_of_getElem? he)] at hset
    cases hset

/-- A pending kind to which all others give way is the one selected (R29). -/
theorem selectedKind_some {records : List EventRecord} {i : Nat} {e : EventRecord} (hi : records[i]? = some e)
    (hset : e.flag = true) (hway : ∀ j, GivesWay records i e j) : selectedKind records = some i := by
  have hlen : i < records.length := (List.getElem?_eq_some_iff.mp hi).1
  have hsel := selectionOf_selectedKind records
  cases hk : selectedKind records with
  | none =>
    rw [hk] at hsel
    rw [hsel i hlen e hi] at hset
    cases hset
  | some b =>
    rw [hk] at hsel
    obtain ⟨-, e', he', hset', hway'⟩ := hsel
    have h1 := hway b e' he' hset'
    have h2 := hway' i hlen e hi hset
    exact congrArg some (by omega)

/-! ### The router's requests at their port (R29 to R33) -/

section
variable {p : Port} {s : State}

theorem eventTake_empty (pl : List Byte) (h : ∀ e ∈ (s.router.get p).records, e.flag = false) :
    eventTake p pl s = (s, ⟨.empty, []⟩) := by
  simp only [eventTake, selectedKind_none h]

/-- The record of a taken kind, cleared (R30). -/
theorem eventTake_selected (pl : List Byte) {i : Nat} {e : EventRecord}
    (hi : (s.router.get p).records[i]? = some e) (hset : e.flag = true)
    (hway : ∀ j, GivesWay (s.router.get p).records i e j) :
    eventTake p pl s =
      okWith (byte1 i ++ byte1 e.level ++ byte1 e.count ++ byte1 (detailLengths.getD i 0) ++ e.detail ++
          byte1 (pendingKinds ((s.router.get p).records.set i (clearedRecord e))))
        (s.onRouter fun t => t.set p { s.router.get p with
          records := (s.router.get p).records.set i (clearedRecord e) }) := by
  have hmod := modify_eq_set _ i clearedRecord e hi
  simp only [eventTake, selectedKind_some hi hset hway, onRouterPort, State.onRouter, hmod, List.getD, hi,
    Option.getD_some, Three.get_set, if_true]

theorem routeSet_refused {k l : Byte} (h : 19 < k.toNat ∨ 3 < l.toNat) :
    routeSet p [k, l] s = (s, ⟨.badValue, []⟩) := if_pos h

theorem routeSet_taken {k l : Byte} {e : EventRecord} (hk : k.toNat ≤ 19) (hl : l.toNat ≤ 3)
    (he : (s.router.get p).records[k.toNat]? = some e) :
    routeSet p [k, l] s =
      okWith (byte1 e.level)
        (s.onRouter fun t => t.set p { s.router.get p with
          records := (s.router.get p).records.set k.toNat (routedRecord l.toNat e) }) := by
  have hk0 : u8 [k, l] 0 = k.toNat := rfl
  have hl1 : u8 [k, l] 1 = l.toNat := rfl
  have hmod := modify_eq_set _ k.toNat (routedRecord l.toNat) e he
  simp only [routeSet, hk0, hl1, Nat.not_lt.mpr hk, Nat.not_lt.mpr hl, or_self, if_false, onRouterPort,
    State.onRouter, hmod, List.getD, he, Option.getD_some]

/-- ROUTE_SET's new record in the terms of its level byte. -/
theorem routedRecord_byte (l : Byte) (e : EventRecord) :
    routedRecord l.toNat e =
      if l = 0 then ⟨0, false, 0, List.replicate 8 0⟩ else { e with level := l.toNat } := by
  simp only [routedRecord, ← BitVec.toNat_inj]
  rfl

theorem floorSet_refused {v : Byte} (h : 3 < v.toNat) : floorSet p [v] s = (s, ⟨.badValue, []⟩) := if_pos h

theorem floorSet_taken {v : Byte} (h : v.toNat ≤ 3) :
    floorSet p [v] s =
      okWith (byte1 (s.router.get p).floor)
        (s.onRouter fun t => t.set p { s.router.get p with floor := v.toNat }) := if_neg (Nat.not_lt.mpr h)

end

/-- A request whose work is one port's new router state, as its answer leaves the part. -/
theorem answeredBy_router {kind : Byte} {block : Port → List Byte → State → State × Answer} {f : Frame} {s : State}
    {r : RouterPort} {payload : List Byte}
    (h : block f.port f.payload (received kind f s) =
      okWith payload ((received kind f s).onRouter fun t => t.set f.port r)) :
    answeredBy kind block f s = answered kind f .ok payload { s with router := s.router.set f.port r } :=
  answeredBy_eq h rfl

/-- The attention output that the new router state gives (R28). -/
theorem attention_answered (kind : Byte) (f : Frame) (payload : List Byte) (s : State) (r : RouterPort) :
    attention ((answered kind f .ok payload { s with router := s.router.set f.port r }).router.get f.port) = true ↔
      ∃ e ∈ r.records, e.flag = true ∧ r.floor < e.level := by
  show attention ((s.router.set f.port r).get f.port) = true ↔ _
  rw [Three.get_set, if_pos rfl, attention_iff]

/-! ### Only told of occurrences -/

/-- `t` is the router `r` after occurrences, each of which reached one port (R23, R27). -/
inductive Told (r : Three RouterPort) : Three RouterPort → Prop
  | refl : Told r r
  | note {t : Three RouterPort} (p : Port) (k : EventKind) (d : List Byte) (h : Told r t) :
      Told r (t.set p (notePort k d (t.get p)))

section
variable {r : Three RouterPort} {s : State}

/-- An occurrence reaches the three ports (R23). -/
theorem told_raise (k : EventKind) (d : List Byte) (h : Told r s.router) : Told r (raise k d s).router :=
  ((h.note .line k d).note .pattern k d).note .roll k d

theorem told_raiseExcept (p : Port) (k : EventKind) (d : List Byte) (h : Told r s.router) :
    Told r (raiseExcept p k d s).router := by
  cases p
  case line => exact (h.note .pattern k d).note .roll k d
  case pattern => exact (h.note .line k d).note .roll k d
  case roll => exact (h.note .line k d).note .pattern k d

theorem told_ite {c : Prop} [Decidable c] {a b : State} (ha : Told r a.router) (hb : Told r b.router) :
    Told r (if c then a else b).router := by
  split
  · exact ha
  · exact hb

/-- Work that leaves the router told, done for each of a list. -/
theorem told_foldl {α : Type} {f : State → α → State} (hf : ∀ a {u : State}, Told r u.router → Told r (f u a).router)
    (l : List α) {s : State} (h : Told r s.router) : Told r (l.foldl f s).router := by
  induction l generalizing s with
  | nil => exact h
  | cons a l ih => exact ih (hf a h)

/-! #### Queue and web -/

theorem told_onFormingPanel (f : PanelRec → PanelRec) (h : Told r s.router) : Told r (onFormingPanel f s).router := by
  unfold onFormingPanel; split <;> exact h

theorem told_flagJoints (h : Told r s.router) : Told r (flagJoints s).router := told_ite (told_onFormingPanel _ h) h

theorem told_chooseTarget (h : Told r s.router) : Told r (chooseTarget s).router := by
  unfold chooseTarget; split <;> exact h

theorem told_cutSeesEnd (h : Told r s.router) : Told r (cutSeesEnd s).router := told_ite (told_chooseTarget h) h

theorem told_cutSeesStart (h : Told r s.router) : Told r (cutSeesStart s).router := by
  unfold cutSeesStart; split
  · exact h
  · split
    · split
      · exact h
      · dsimp only; split <;> exact h
    · exact h

theorem told_closePanel (n : BitVec 16) (a : Bool) (h : Told r s.router) : Told r (closePanel n a s).router :=
  told_cutSeesEnd h

theorem told_markJoint (h : Told r s.router) : Told r (markJoint s).router := by
  unfold markJoint; dsimp only; split <;> exact h

theorem told_markArrivals (g : RollGeometry) (p : Pos) (es : List Joint) {s : State} (h : Told r s.router) :
    Told r (markArrivals g p es s).router := by
  induction es generalizing s with
  | nil => exact h
  | cons e es ih =>
    rw [markArrivals]
    exact ih (told_ite (told_markJoint h) h)

theorem told_queuedFell (h : Told r s.router) : Told r (queuedFell s).router := told_ite (told_raise _ _ h) h

theorem told_activate (h : Told r s.router) : Told r (activate s).router := told_ite h (told_queuedFell h)

theorem told_retire (k : Nat) (h : Told r s.router) : Told r (retire k s).router := by
  unfold retire; split
  · exact h
  · exact told_raise _ _ h

theorem told_countPanel (h : Told r s.router) : Told r (countPanel s).router := by
  unfold countPanel; dsimp only; split
  · exact h
  · split
    · exact told_retire _ h
    · split
      · exact told_retire _ h
      · exact h

theorem told_countAborted (h : Told r s.router) : Told r (countAborted s).router := by
  unfold countAborted; split
  · exact h
  · split
    · exact told_retire _ h
    · exact h

theorem told_fireCut (k : Nat) (n : Option (BitVec 16)) (h : Told r s.router) : Told r (fireCut k n s).router :=
  told_raise _ _ h

theorem told_cutCompare (h : Told r s.router) : Told r (cutCompare s).router := by
  unfold cutCompare; split
  · exact h
  · split
    · exact told_fireCut _ _ h
    · exact h

theorem told_queueReport (p : PanelRec) (h : Told r s.router) : Told r (queueReport p s).router :=
  told_ite (told_raise _ _ h) h

theorem told_awaitReport (n : BitVec 16) (h : Told r s.router) : Told r (awaitReport n s).router := told_raise _ _ h

theorem told_panelAtKnife (n : BitVec 16) (h : Told r s.router) : Told r (panelAtKnife n s).1.router := by
  unfold panelAtKnife; split
  · exact h
  · split
    · exact told_queueReport _ h
    · exact told_awaitReport n h

theorem told_passKnife (h : Told r s.router) : Told r (passKnife s).1.router := by
  unfold passKnife; split
  · exact h
  · split
    · dsimp only; split
      · exact told_panelAtKnife _ h
      · exact h
    · exact h

theorem told_makeWaitingReport (h : Told r s.router) : Told r (makeWaitingReport s).1.router := by
  unfold makeWaitingReport; split
  · exact h
  · split
    · exact told_queueReport _ h
    · exact h

/-! #### Zones -/

theorem told_handTarget (t : Nat) (z : Fin 4) (h : Told r s.router) : Told r (handTarget t z s).router := by
  unfold handTarget; split <;> exact h

theorem told_retarget (h : Told r s.router) : Told r (retarget s).router :=
  told_foldl (fun z _ hu => told_handTarget _ z hu) zonesInOrder h

theorem told_endTestOf (z : Fin 4) (h : Told r s.router) : Told r (endTestOf z s).router := by
  unfold endTestOf; split <;> exact h

theorem told_tripZone (z : Fin 4) (h : Told r s.router) : Told r (tripZone z s).router :=
  told_ite (told_endTestOf z h) h

theorem told_probeFaultZone (z : Fin 4) (h : Told r s.router) : Told r (probeFaultZone z s).router := by
  unfold probeFaultZone; split <;> exact h

theorem told_releaseTrip (z : Fin 4) (h : Told r s.router) : Told r (releaseTrip z s).router := by
  unfold releaseTrip; split <;> exact h

theorem told_releaseProbe (z : Fin 4) (h : Told r s.router) : Told r (releaseProbe z s).router := by
  unfold releaseProbe; split <;> exact h

theorem told_disableZone (z : Fin 4) (h : Told r s.router) : Told r (disableZone z s).router :=
  told_ite h (told_endTestOf z h)

theorem told_enableZone (z : Fin 4) (h : Told r s.router) : Told r (enableZone z s).router := by
  unfold enableZone; split <;> exact h

theorem told_takeReading (z : Fin 4) (n : Nat) (h : Told r s.router) : Told r (takeReading z n s).router := by
  unfold takeReading; split
  · exact h
  · split <;> exact h

theorem told_monitorAct (z : Fin 4) (h : Told r s.router) : Told r (monitorAct z s).router := by
  unfold monitorAct; dsimp only; split
  · exact h
  · exact told_raise _ _ h
  all_goals exact told_raise _ _ (told_tripZone z h)

theorem told_monitorSample (z : Fin 4) (h : Told r s.router) : Told r (monitorSample z s).router :=
  told_ite (told_monitorAct z h) h

theorem told_regulateZone (z : Fin 4) (h : Told r s.router) : Told r (regulateZone z s).router :=
  told_ite (told_raise _ _ h) h

theorem told_retryRelease (z : Fin 4) (h : Told r s.router) : Told r (retryRelease z s).router :=
  told_ite (told_releaseTrip z h) h

theorem told_judgeTest (z : Fin 4) (h : Told r s.router) : Told r (judgeTest z s).router := by
  unfold judgeTest; split
  · exact h
  · split
    · exact told_raise _ _ (told_probeFaultZone z h)
    · exact h

theorem told_testPeriod (z : Fin 4) (h : Told r s.router) : Told r (testPeriod z s).router := by
  unfold testPeriod; split
  · split
    · exact h
    · exact told_judgeTest z h
  · exact h

theorem told_regulationPeriod (z : Fin 4) (h : Told r s.router) : Told r (regulationPeriod z s).router :=
  told_testPeriod z (told_retryRelease z (told_regulateZone z h))

theorem told_reportSettled (f : Bool) (h : Told r s.router) : Told r (reportSettled f s).1.router := by
  unfold reportSettled; dsimp only; split
  · exact h
  · dsimp only; split
    · exact told_raise _ _ h
    · exact h

theorem told_drainTest (h : Told r s.router) : Told r (drainTest s).1.router := by
  unfold drainTest; split
  · exact h
  · split
    · exact told_retarget h
    · exact h

theorem told_recipeForRun (i : Fin 4) (h : Told r s.router) : Told r (recipeForRun i s).router := by
  unfold recipeForRun; split <;> exact h

theorem told_doseSample (h : Told r s.router) : Told r (doseSample s).router := by
  unfold doseSample; split
  · exact h
  · split <;> exact h

theorem told_judgeCell (c : Option Cell) (h : Told r s.router) : Told r (judgeCell c s).router := by
  unfold judgeCell; split
  · unfold offerCell; split <;> exact h
  · exact h

theorem told_shiftCells (h : Told r s.router) : Told r (shiftCells s).router := told_ite (told_judgeCell _ h) h

/-! #### Planner -/

theorem told_testRollLow (h : Told r s.router) : Told r (testRollLow s).router := by
  unfold testRollLow; split
  · exact h
  · split
    · exact told_raise _ _ h
    · exact h

theorem told_schedule (c : Candidate) (h : Told r s.router) : Told r (schedule c s).router := told_raise _ _ h
theorem told_unschedule (h : Told r s.router) : Told r (unschedule s).router := h
theorem told_forceSplice (h : Told r s.router) : Told r (forceSplice s).router := told_raise _ _ h
theorem told_leaveFired (h : Told r s.router) : Told r (leaveFired s).router := told_testRollLow h

theorem told_announceFailure (n : Nat) (p : Option Pos) (h : Told r s.router) :
    Told r (announceFailure n p s).router := told_raise _ _ h

theorem told_capture (h : Told r s.router) : Told r (capture s).router := by
  show Told r (offerCapture s.tracker.pIn s).router
  unfold offerCapture; split
  · split
    · exact told_leaveFired (told_raise _ _ h)
    · exact h
  · exact h

theorem told_search (b : Bool) (h : Told r s.router) : Told r (search b s).1.router := by
  unfold search; dsimp only; split
  · exact told_schedule _ h
  · exact h
  · split
    · exact h
    · split
      · exact h
      · exact told_schedule _ h
  · split
    · exact h
    · exact told_unschedule h
  all_goals exact h

theorem told_withdrawSplice (c : Option FailCause) (h : Told r s.router) : Told r (withdrawSplice c s).1.router := by
  unfold withdrawSplice; split
  · refine told_testRollLow ?_
    cases c with
    | none => exact h
    | some c => exact told_announceFailure _ _ h
  · exact h

theorem told_deadlineTest (h : Told r s.router) : Told r (deadlineTest s).1.router := by
  unfold deadlineTest; split
  · split
    · exact told_forceSplice h
    · exact h
  · exact h

theorem told_approachTest (h : Told r s.router) : Told r (approachTest s).1.router := by
  unfold approachTest; split
  · split <;> exact h
  · exact h

theorem told_fireTest (h : Told r s.router) : Told r (fireTest s).1.router := by
  unfold fireTest; split
  · split <;> exact h
  · exact h

theorem told_windowTest (h : Told r s.router) : Told r (windowTest s).1.router := by
  unfold windowTest; split
  · split
    · exact told_leaveFired (told_announceFailure _ _ h)
    · exact h
  · exact h

theorem told_dueExpiryTest (h : Told r s.router) : Told r (dueExpiryTest s).1.router := by
  unfold dueExpiryTest; split
  · exact h
  · split <;> exact h

theorem told_jointPassed (x : Pos) (h : Told r s.router) : Told r (jointPassed x s).1.router := by
  unfold jointPassed; split <;> exact h

theorem told_rollOutTest (h : Told r s.router) : Told r (rollOutTest s).1.router := by
  unfold rollOutTest; dsimp only; split
  · exact told_testRollLow h
  · split <;> exact told_testRollLow h

/-! #### Line -/

theorem told_deriveHood (h : Told r s.router) : Told r (deriveHood s).router := by
  unfold deriveHood; dsimp only; split <;> exact h

theorem told_commandHood (b : Bool) (h : Told r s.router) : Told r (commandHood b s).router := told_deriveHood h

theorem told_setLine (l : LineState) (h : Told r s.router) : Told r (setLine l s).router :=
  told_retarget (told_raise _ _ h)

theorem told_setCauses (c : HoldCauses) (h : Told r s.router) : Told r (setCauses c s).router := by
  unfold setCauses; split
  · exact h
  · dsimp only; split
    · exact told_raise _ _ h
    · exact h

theorem told_withdrawCauses (h : Told r s.router) : Told r (withdrawCauses s).router := told_setCauses _ h

theorem told_leaveBoundaryHold (h : Told r s.router) : Told r (leaveBoundaryHold s).router :=
  told_ite (told_withdrawCauses h) h

theorem told_enterLine (l : LineState) (h : Told r s.router) : Told r (enterLine l s).1.router := by
  cases l <;> dsimp only [enterLine]
  case stopped => exact told_leaveBoundaryHold (told_commandHood _ (told_setLine _ h))
  case warming | running | stopping => exact told_setLine _ h
  case lowering => exact told_commandHood _ (told_setLine _ h)
  case holding =>
    split
    · exact told_commandHood _ (told_setLine _ h)
    · exact told_setLine _ h
  case tripped => exact h

theorem told_tripLine (c : TripCause) (h : Told r s.router) : Told r (tripLine c s).1.router := by
  unfold tripLine; dsimp only; split
  · exact told_raise _ _ h
  · rw [State.onMonitor_router]
    exact told_commandHood _ (told_setLine _ (told_raise _ _ h))

theorem told_hoodSeen (h : Told r s.router) : Told r (hoodSeen s).1.router := by
  unfold hoodSeen; split
  · exact told_enterLine _ h
  · exact h

theorem told_warmTest (h : Told r s.router) : Told r (warmTest s).1.router := by
  unfold warmTest; split
  · exact told_enterLine _ h
  · exact h

theorem told_causesChanged (h : Told r s.router) : Told r (causesChanged s).1.router := by
  unfold causesChanged; split
  · exact told_enterLine _ h
  · split
    · exact told_enterLine _ h
    · exact h

theorem told_stopCheck (h : Told r s.router) : Told r (stopCheck s).1.router := by
  unfold stopCheck; split
  · exact told_enterLine _ h
  · exact h

theorem told_reportEnd (h : Told r s.router) : Told r (reportEnd s).1.router := by
  unfold reportEnd; split
  · exact told_enterLine _ h
  · exact h

theorem told_stopNow (h : Told r s.router) : Told r (stopNow s).1.router := by
  unfold stopNow; split
  case h_1 | h_2 | h_3 => exact h
  all_goals exact told_enterLine _ h

theorem told_speedUpdate (h : Told r s.router) : Told r (speedUpdate s).1.router := by
  have hs : ∀ {u : State}, Told r u.router → Told r (takeHeatLimit u).router := by
    intro u hu
    unfold takeHeatLimit; dsimp only; split
    · exact told_setCauses _ hu
    · exact hu
  exact hs (told_retarget h)

theorem told_speedSteps (h : Told r s.router) : Told r (speedSteps s).router := h

/-! #### Former -/

theorem told_enterStep (i : Nat) (h : Told r s.router) : Told r (enterStep i s).router := by
  unfold enterStep; split
  · exact h
  · split <;> exact h

theorem told_enterFeed (st : StepRec) (h : Told r s.router) : Told r (enterFeed st s).router :=
  told_ite (told_onFormingPanel _ h) h

theorem told_afterStroke (h : Told r s.router) : Told r (afterStroke s).router := by
  unfold afterStroke; split
  · split
    · exact h
    · split
      · exact h
      · split <;> exact h
  · exact h

theorem told_noteLate (h : Told r s.router) : Told r (noteLate s).router := by unfold noteLate; split <;> exact h

theorem told_keepReached (h : Told r s.router) : Told r (keepReached s).router := by
  unfold keepReached; split <;> exact h

theorem told_bridgeTest (h : Told r s.router) : Told r (bridgeTest s).1.router := by
  unfold bridgeTest; split <;> exact h

theorem told_abortBridge (h : Told r s.router) : Told r (abortBridge s).router := by
  unfold abortBridge; split <;> exact h

theorem told_spaceTest (h : Told r s.router) : Told r (spaceTest s).1.router := by
  unfold spaceTest; split <;> exact h

theorem told_recordLate (h : Told r s.router) : Told r (recordLate s).router :=
  told_ite (told_raise _ _ (told_onFormingPanel _ h)) h

theorem told_startStroke (h : Told r s.router) : Told r (startStroke s).1.router := by
  unfold startStroke; split
  · exact h
  · exact told_enterFeed _ (told_recordLate h)

theorem told_endRetract (h : Told r s.router) : Told r (endRetract s).1.router := by
  unfold endRetract; split
  · exact h
  · next st hst =>
    have hs : Told r (afterStroke (onFormingPanel (fun p => { p with formed := bump16 p.formed })
        (s.onFormer fun f => { f with timer := none }))).router := told_afterStroke (told_onFormingPanel _ h)
    dsimp only; split
    · exact hs
    · split
      · exact told_startStroke hs
      · exact hs

theorem told_holdFor (c : HoldReason) (h : Told r s.router) : Told r (holdFor c s).router := told_setCauses _ h
theorem told_restIdle (h : Told r s.router) : Told r (restIdle s).router := told_withdrawCauses h
theorem told_startBridge (i : Fin 4) (h : Told r s.router) : Told r (startBridge i s).router := told_withdrawCauses h

theorem told_startPanel (h : Told r s.router) : Told r (startPanel s).router := by
  have ha : Told r (activate (withdrawCauses s)).router := told_activate (told_withdrawCauses h)
  unfold startPanel; dsimp only; split
  · exact ha
  · exact told_cutSeesStart ha

theorem told_boundaryTest (h : Told r s.router) : Told r (boundaryTest s).1.router := by
  unfold boundaryTest; split
  · exact h
  · split
    · refine told_holdFor _ ?_
      split
      · exact h
      · exact told_raise _ _ h
    · split
      · split
        · exact told_holdFor _ h
        · split
          · exact told_startBridge _ h
          · exact told_restIdle h
      · split
        · exact told_holdFor _ h
        · split
          · exact told_startPanel h
          · exact told_restIdle h

theorem told_endPanel (h : Told r s.router) : Told r (endPanel s).1.router := by
  unfold endPanel; split
  · exact h
  · exact told_countPanel (told_closePanel _ _ h)

theorem told_endFollow (h : Told r s.router) : Told r (endFollow s).1.router := by
  unfold endFollow; split
  · exact told_enterStep _ h
  · split
    · split
      · exact h
      · exact told_enterStep _ h
    · exact h
  · exact told_endPanel h
  all_goals exact h

theorem told_formerTest (h : Told r s.router) : Told r (formerTest s).1.router := by
  unfold formerTest; split
  case h_1 | h_2 | h_3 =>
    split
    · exact told_endFollow h
    · exact h
  case h_4 =>
    split
    · exact told_startStroke h
    · exact h
  case h_5 => dsimp only [quiet]; split <;> exact told_noteLate h
  case h_6 | h_7 => exact told_noteLate h
  case h_8 =>
    split
    · exact told_endRetract h
    · exact told_noteLate h
  case h_9 => exact told_keepReached h
  case h_10 | h_11 => exact h

theorem told_resumeWork (h : Told r s.router) : Told r (resumeWork s).1.router := by
  unfold resumeWork; dsimp only; split
  · exact told_startStroke h
  · exact h

theorem told_formerRun (h : Told r s.router) : Told r (formerRun s).1.router := by
  unfold formerRun; split
  · exact h
  · split
    case h_2 =>
      split
      · exact told_resumeWork h
      · exact h
    all_goals exact h

theorem told_formerPause (h : Told r s.router) : Told r (formerPause s).1.router := by
  unfold formerPause; split
  case h_6 => exact told_leaveBoundaryHold h
  all_goals exact h

theorem told_formerAbort (h : Told r s.router) : Told r (formerAbort s).1.router := by
  have hpanel : Told r (abortPanel s).router := by
    unfold abortPanel; split
    · exact h
    · exact told_countAborted (told_closePanel _ _ h)
  exact told_withdrawCauses (told_abortBridge hpanel)

end

/-- Whatever a signal sets off, the router is only told of occurrences. -/
theorem told_handle {r : Three RouterPort} (g : Sig) {s : State} (h : Told r s.router) :
    Told r (handle g s).1.router := by
  cases g with
  | trip c => exact told_tripLine c h
  | hoodSeen => exact told_hoodSeen h
  | warm => exact told_warmTest h
  | causes => exact told_causesChanged h
  | stopCheck => exact told_stopCheck h
  | reportEnd => exact told_reportEnd h
  | settled force => exact told_reportSettled force h
  | drain => exact told_drainTest h
  | former => exact told_formerTest h
  | boundary => exact told_boundaryTest h
  | space => exact told_spaceTest h
  | formerRun => exact told_formerRun h
  | formerPause => exact told_formerPause h
  | abort => exact told_formerAbort h
  | bridge => exact told_bridgeTest h
  | joints => exact told_markArrivals _ _ _ h
  | jointsPast => exact told_flagJoints h
  | track x => exact h
  | jointPassed x => exact told_jointPassed x h
  | knife => exact told_passKnife h
  | search b => exact told_search b h
  | deadline => exact told_deadlineTest h
  | approach => exact told_approachTest h
  | fire => exact told_fireTest h
  | window => exact told_windowTest h
  | dueExpiry => exact told_dueExpiryTest h
  | rollOut => exact told_rollOutTest h
  | cancelSplice c => exact told_withdrawSplice c h

/-- So it is by a whole cascade. -/
theorem told_settle {r : Three RouterPort} {w : Work} (h : Told r w.1.router) : Told r (settle w).router :=
  settle_keeps (P := fun s => Told r s.router) (fun _ => told_flagJoints) (fun g _ => told_handle g) w h

theorem told_settle_signals {r : Three RouterPort} {s : State} {gs : List Sig} (h : Told r s.router) :
    Told r (settle (s, gs)).router := told_settle h

/-! ### The commands -/

/-- Around a block's work, serving a request leaves the router alone. -/
theorem serve_keeps_router {P : Three RouterPort → Prop} {kind : Byte} {auth : Option Port} {lengthOk : Nat → Bool}
    {block : Port → List Byte → State → State × Answer}
    (hb : ∀ p pl {s : State}, P s.router → P (block p pl s).1.router) {f : Frame} {s : State} (h : P s.router) :
    P (serve kind auth lengthOk block f s).router := by
  unfold serve
  dsimp only
  split
  · exact h
  · split
    · exact h
    · split
      · exact hb _ _ h
      · exact h

section
variable {r : Three RouterPort} (p : Port) (pl : List Byte) {s : State}

theorem told_statusRead (h : Told r s.router) : Told r (statusRead p pl s).1.router := by
  unfold statusRead
  split
  case h_2 | h_5 => split <;> exact h
  case h_7 =>
    show Told r (afterSpliceView s).router
    unfold afterSpliceView; split <;> exact h
  all_goals exact h

theorem told_presenceSet (h : Told r s.router) : Told r (presenceSet p pl s).1.router := by
  unfold presenceSet; split <;> exact h

/-! #### Line and zones -/

theorem told_lineStart (h : Told r s.router) : Told r (lineStart p pl s).1.router := by
  unfold lineStart; split
  · exact h
  · split
    · exact told_settle (told_enterLine _ (told_recipeForRun _ h))
    · exact h

theorem told_lineStop (h : Told r s.router) : Told r (lineStop p pl s).1.router := by
  unfold lineStop; split
  · exact h
  · unfold stopLine; split
    case h_4 | h_5 => exact told_settle (told_stopNow h)
    case h_6 | h_7 =>
      split
      · exact h
      · exact told_settle (told_stopNow h)
    all_goals exact h

theorem told_lineReset (h : Told r s.router) : Told r (lineReset p pl s).1.router := by
  have hzones : (resetZones (lineResetState s)).router = s.router := by
    simp [resetZones, zonesInOrder, changeTarget, lineResetState]
  unfold lineReset; split
  · refine told_raise _ _ ?_
    rwa [hzones]
  · exact h

theorem told_motionSet (h : Told r s.router) : Told r (motionSet p pl s).1.router := by
  unfold motionSet; dsimp only; split
  · exact h
  · split <;> exact h

theorem told_recipeSet (h : Told r s.router) : Told r (recipeSet p pl s).1.router := by
  unfold recipeSet; dsimp only; split
  · exact h
  · split
    · exact h
    · split <;> exact h

theorem told_applyZoneSet (h : Told r s.router) : Told r (applyZoneSet pl s).router := by
  have hoff : ∀ {z : Fin 4} {u : State}, Told r u.router →
      Told r (if u8 pl 1 = 0 then disableZone z u else u).router :=
    fun hu => told_ite (told_disableZone _ hu) hu
  have harm : ∀ {z : Fin 4} {u : State}, Told r u.router →
      Told r (if u8 pl 2 = 1 then u.onZone z armZone else u).router := fun hu => told_ite hu hu
  exact told_ite (told_enableZone _ (harm (hoff h))) (harm (hoff h))

theorem told_zoneSetRequest (h : Told r s.router) : Told r (zoneSetRequest p pl s).1.router := by
  unfold zoneSetRequest; split
  · exact h
  · exact told_settle_signals (told_applyZoneSet pl h)

theorem told_monitorSet (h : Told r s.router) : Told r (monitorSet p pl s).1.router := by
  have hnew : ∀ n, Told r (newInterval n s).router := by
    intro n
    unfold newInterval; split
    · exact h
    · dsimp only; split
      · exact h
      · split <;> exact h
  unfold monitorSet; split
  · exact h
  · split
    · split
      · unfold monitorSetLine; split
        · exact h
        · exact hnew _
      · exact h
    · split
      · unfold monitorSetZone; dsimp only; split <;> exact h
      · exact h

theorem told_clearZone (z : Fin 4) {s : State} (h : Told r s.router) : Told r (clearZone s z).router := by
  have htrip : ∀ {u : State}, Told r u.router → Told r (if clearsTrip s z then releaseTrip z u else u).router :=
    fun hu => told_ite (told_releaseTrip z hu) hu
  exact told_ite (told_releaseProbe z (htrip h)) (htrip h)

theorem told_clearLine (h : Told r s.router) : Told r (clearLine s).1.router := by
  unfold clearLine; split
  · simp only [followedBy]
    exact told_enterLine _ h
  · exact h

theorem told_faultClear (h : Told r s.router) : Told r (faultClear p pl s).1.router := by
  unfold faultClear; split
  · exact h
  · exact told_settle (told_clearLine (told_foldl (fun z _ => told_clearZone z) zonesInOrder h))

/-! #### Former, tunnel and inputs -/

theorem told_formerSet (h : Told r s.router) : Told r (formerSet p pl s).1.router := by
  unfold formerSet; dsimp only; split
  · exact h
  · split
    · exact h
    · split <;> exact h

theorem told_tunnelSet (h : Told r s.router) : Told r (tunnelSet p pl s).1.router := by
  unfold tunnelSet; dsimp only; split
  · exact h
  · split <;> exact h

theorem told_giveEstop (b : Bool) (h : Told r s.router) : Told r (giveEstop b s).1.router := by
  unfold giveEstop; split <;> exact h

theorem told_inputSet (h : Told r s.router) : Told r (inputSet p pl s).1.router := by
  unfold inputSet; dsimp only; split
  · exact h
  · split
    · exact h
    · refine told_settle (told_giveEstop _ ?_)
      exact told_foldl (f := fun a sw => refilterSwitch _ sw a) (fun sw _ hu => hu) _ h

/-! #### Patterns, orders and reports -/

theorem told_patternBegin (h : Told r s.router) : Told r (patternBegin p pl s).1.router := by
  unfold patternBegin; dsimp only; split
  · exact h
  · split
    · exact h
    · split <;> exact h

theorem told_patternSteps (h : Told r s.router) : Told r (patternSteps p pl s).1.router := by
  unfold patternSteps; split
  · exact h
  · dsimp only; split <;> exact h

theorem told_patternEnd (h : Told r s.router) : Told r (patternEnd p pl s).1.router := by
  unfold patternEnd; split
  · exact h
  · dsimp only; split <;> exact h

theorem told_patternDelete (h : Told r s.router) : Told r (patternDelete p pl s).1.router := by
  unfold patternDelete; dsimp only; split
  · exact h
  · split
    case h_2 => split <;> exact h
    all_goals exact h

theorem told_orderQueue (h : Told r s.router) : Told r (orderQueue p pl s).1.router := by
  unfold orderQueue; split
  · exact h
  · split
    · exact h
    · split
      · exact h
      · split
        · exact h
        · exact told_settle_signals h

theorem told_orderCancel (h : Told r s.router) : Told r (orderCancel p pl s).1.router := by
  unfold orderCancel; split
  · exact h
  · split
    · exact h
    · split
      · split
        · exact h
        · split
          · exact h
          · exact told_settle_signals (told_retire 1 h)
      · exact told_settle_signals (told_queuedFell h)

theorem told_queueLowSet (h : Told r s.router) : Told r (queueLowSet p pl s).1.router := by
  unfold queueLowSet; split <;> exact h

theorem told_reportTake (h : Told r s.router) : Told r (reportTake p pl s).1.router := by
  unfold reportTake; split
  · exact h
  · exact told_settle (told_makeWaitingReport h)

/-! #### Roll and knife -/

theorem told_rollGeometrySet (h : Told r s.router) : Told r (rollGeometrySet p pl s).1.router := by
  unfold rollGeometrySet; dsimp only; split
  · exact h
  · split <;> exact h

theorem told_rollStatus (h : Told r s.router) : Told r (rollStatus p pl s).1.router := by
  unfold rollStatus; split
  · exact h
  · split
    · exact h
    · exact told_settle_signals (told_testRollLow h)

theorem told_spliceArm (h : Told r s.router) : Told r (spliceArm p pl s).1.router := by
  unfold spliceArm; split
  · exact h
  · split
    · exact h
    · exact told_settle_signals h

theorem told_spliceForce (h : Told r s.router) : Told r (spliceForce p pl s).1.router := by
  unfold spliceForce; split
  · exact h
  · split
    · exact h
    · exact told_forceSplice h

theorem told_spliceCancel (h : Told r s.router) : Told r (spliceCancel p pl s).1.router := by
  unfold spliceCancel; split
  case h_4 => exact h
  case h_5 => split <;> exact h
  all_goals exact told_settle (told_withdrawSplice none h)

theorem told_withdrawCut (h : Told r s.router) : Told r (withdrawCut s).router := by
  unfold withdrawCut; split <;> exact h

theorem told_cutRequest (h : Told r s.router) : Told r (cutRequest p pl s).1.router := by
  have hflag : ∀ n, Told r (flagCutThrough n s).router := by
    intro n
    unfold flagCutThrough; split <;> exact h
  unfold cutRequest; split
  · exact h
  · split
    · unfold cutNextEnd; split
      · exact h
      · exact told_chooseTarget h
    · unfold cutForce; split
      · exact h
      · exact told_fireCut _ _ (hflag _)

theorem told_cutCancel (h : Told r s.router) : Told r (cutCancel p pl s).1.router := by
  unfold cutCancel; split
  · exact told_withdrawCut h
  · exact h
  · split <;> exact h

/-! #### Counts, switches and timers -/

theorem told_portLost (h : Told r s.router) : Told r (portLost p s).1.router := by
  cases p
  case line => exact told_stopNow h
  case pattern => exact h
  case roll => exact told_withdrawCut h

theorem told_beginSearch (h : Told r s.router) : Told r (beginSearch s).router := by
  unfold beginSearch; split <;> exact h

theorem told_edgeEffect (sw : Switch) (b : Bool) (h : Told r s.router) : Told r (edgeEffect sw b s).1.router := by
  cases sw <;> dsimp only [edgeEffect] <;> split
  case hoodUp.isFalse | hoodDown.isTrue => exact told_deriveHood h
  case jointDetector.isTrue => exact told_capture h
  all_goals exact h

theorem told_takeLevel (sw : Switch) (h : Told r s.router) : Told r (takeLevel sw s).router :=
  told_ite h (told_settle (told_edgeEffect _ _ h))

end

/-- The commands that change the router themselves: the device reset and the router's own requests (R29, R32, R33). -/
def routerCommand : Instr → Bool
  | .deviceReset | .eventTake _ | .routeSet _ | .floorSet _ => true
  | _ => false

/-- Every other command, with all that follows from it, only tells the router of occurrences. -/
theorem told_exec {c : Instr} {s t : State} (hc : routerCommand c = false) (h : exec c s = .next t) :
    Told s.router t.router := by
  have h0 : Told s.router s.router := .refl
  cases c
  case deviceReset | eventTake | routeSet | floorSet => cases hc
  case incompleteFrame p bytes =>
    simp only [exec, execIncompleteFrame] at h
    split at h <;> cases h
    exact h0
  case unknownKindFrame kind f =>
    simp only [exec, execUnknownKindFrame] at h
    split at h <;> cases h
    split <;> exact h0
  all_goals obtain rfl := Host.Outcome.next.inj h
  case emptyTransaction p => exact h0
  case nop f => exact serve_keeps_router (fun _ _ _ h => h) h0
  case lineView | zoneView | formerView | queueView | panelView | mapView | spliceView | portView =>
    exact serve_keeps_router told_statusRead h0
  case presenceSet f => exact serve_keeps_router told_presenceSet h0
  case lineStart f => exact serve_keeps_router told_lineStart h0
  case lineStopImmediate | lineStopEndOfPanel => exact serve_keeps_router told_lineStop h0
  case lineReset f => exact serve_keeps_router told_lineReset h0
  case speedSet f => exact serve_keeps_router (block := speedSet) (fun _ _ _ h => h) h0
  case recipeSet f => exact serve_keeps_router told_recipeSet h0
  case zoneSet | zoneDisable | zoneArm | zoneEnable => exact serve_keeps_router told_zoneSetRequest h0
  case monitorSetZone | monitorSetLine => exact serve_keeps_router told_monitorSet h0
  case faultClear f => exact serve_keeps_router told_faultClear h0
  case formerSet f => exact serve_keeps_router told_formerSet h0
  case tunnelSet f => exact serve_keeps_router told_tunnelSet h0
  case motionSet f => exact serve_keeps_router told_motionSet h0
  case inputSet f => exact serve_keeps_router told_inputSet h0
  case rollGeometrySet f => exact serve_keeps_router told_rollGeometrySet h0
  case patternBegin f => exact serve_keeps_router told_patternBegin h0
  case patternSteps f => exact serve_keeps_router told_patternSteps h0
  case patternEnd f => exact serve_keeps_router told_patternEnd h0
  case patternDelete f => exact serve_keeps_router told_patternDelete h0
  case orderQueue f => exact serve_keeps_router told_orderQueue h0
  case orderCancel f => exact serve_keeps_router told_orderCancel h0
  case reportTake f => exact serve_keeps_router told_reportTake h0
  case queueLowSet f => exact serve_keeps_router told_queueLowSet h0
  case rollStatus f => exact serve_keeps_router told_rollStatus h0
  case spliceArm f => exact serve_keeps_router told_spliceArm h0
  case spliceForce f => exact serve_keeps_router told_spliceForce h0
  case spliceCancel f => exact serve_keeps_router told_spliceCancel h0
  case cutRequestNextEnd | cutRequestForce => exact serve_keeps_router told_cutRequest h0
  case cutCancel f => exact serve_keeps_router told_cutCancel h0
  case presenceExpiry p =>
    split
    · exact told_settle (told_portLost p (told_raiseExcept _ _ _ h0))
    · exact h0
  case infeedCount a b =>
    dsimp only
    split
    · exact h0
    · exact told_settle_signals h0
  case outfeedCount a b =>
    dsimp only
    split
    · exact h0
    · exact told_settle (told_cutCompare (told_shiftCells h0))
    · exact told_settle_signals h0
  case switchPinChange sw high =>
    split
    · exact h0
    · dsimp only
      split
      · exact told_takeLevel sw h0
      · exact h0
  case filterExpiry sw =>
    split
    · exact told_takeLevel sw h0
    · exact h0
  case estopChange high => exact told_settle (told_giveEstop _ h0)
  case feedTimeout | tuckEnd | pressEnd | bladeJam | breakTimerExpiry | hoodTimerExpiry =>
    split
    · exact told_settle_signals h0
    · exact h0
  case hoodDelayExpiry =>
    split
    · exact told_settle_signals (told_commandHood _ h0)
    · exact h0
  case probeSample z n => exact told_settle_signals (told_monitorSample z (told_takeReading z n h0))
  case regulationPeriod z => exact told_settle_signals (told_regulationPeriod z h0)
  case valveWindowStart | valveClose | splicePulseEnd => exact h0
  case doseSample => exact told_doseSample h0
  case speedUpdate => exact told_speedSteps (told_settle (told_speedUpdate h0))
  case probeCheckTimer =>
    dsimp only
    split
    · exact h0
    · split
      · exact told_beginSearch h0
      · exact h0
  case cutPulseEnd => split <;> exact h0

/-! ### The records stay well kept (R26) -/

/-- A port's floor and its twenty records are well kept. -/
def PortKept (r : RouterPort) : Prop := r.floor ≤ 3 ∧ r.records.length = 20 ∧ ∀ e ∈ r.records, recordKept e

/-- Every port's are. -/
def PortsKept (t : Three RouterPort) : Prop := ∀ p, PortKept (t.get p)

theorem routing_iff (s : State) : Routing s ↔ PortsKept s.router := Iff.rfl

theorem recordKept_clear {l : Nat} (h : l ≤ 3) : recordKept (EventRecord.clear l) :=
  ⟨h, rfl, Nat.zero_le _, fun hf => absurd hf Bool.false_ne_true, fun _ => ⟨rfl, rfl⟩⟩

theorem detailBytes_length (d : List Byte) : (detailBytes d).length = 8 := by simp [detailBytes]

theorem recordKept_noteRecord (d : List Byte) {e : EventRecord} (h : recordKept e) : recordKept (noteRecord d e) := by
  by_cases h0 : e.level = 0
  · rwa [noteRecord_unrouted d h0]
  · have hcount : ∀ c, c = (if e.flag then (if e.count < 255 then e.count + 1 else 255) else 1) →
        1 ≤ c ∧ c ≤ 255 := by
      rintro c rfl
      split
      · split <;> omega
      · omega
    obtain ⟨hone, hmax⟩ := hcount _ rfl
    rw [noteRecord_routed d h0]
    exact ⟨h.1, detailBytes_length d, hmax, fun _ => ⟨hone, Nat.one_le_iff_ne_zero.mpr h0⟩, fun hf => nomatch hf⟩

theorem recordKept_routedRecord {l : Nat} (hl : l ≤ 3) {e : EventRecord} (h : recordKept e) :
    recordKept (routedRecord l e) := by
  unfold routedRecord
  split
  · exact recordKept_clear (Nat.zero_le _)
  · next h0 =>
    obtain ⟨-, hdetail, hcount, hset, hclear⟩ := h
    exact ⟨hl, hdetail, hcount, fun hf => ⟨(hset hf).1, Nat.one_le_iff_ne_zero.mpr h0⟩, hclear⟩

/-- A changed record that is well kept leaves the port well kept. -/
theorem portKept_modify {r : RouterPort} {f : EventRecord → EventRecord} (i : Nat)
    (hf : ∀ e, recordKept e → recordKept (f e)) (h : PortKept r) :
    PortKept { r with records := r.records.modify i f } := by
  obtain ⟨hfloor, hlen, hrec⟩ := h
  refine ⟨hfloor, (List.length_modify _ _ _).trans hlen, fun e he => ?_⟩
  obtain ⟨n, hn⟩ := List.mem_iff_getElem?.mp he
  rw [List.getElem?_modify] at hn
  obtain ⟨e', he', rfl⟩ := Option.map_eq_some_iff.mp hn
  split
  · exact hf e' (hrec e' (List.mem_of_getElem? he'))
  · exact hrec e' (List.mem_of_getElem? he')

/-- A changed port that is well kept leaves every port well kept. -/
theorem portsKept_set {t : Three RouterPort} (p : Port) {r : RouterPort} (hr : PortKept r) (h : PortsKept t) :
    PortsKept (t.set p r) := by
  intro q
  rw [Three.get_set]
  split
  · exact hr
  · exact h q

/-- Occurrences leave the records well kept (R27). -/
theorem portsKept_told {r t : Three RouterPort} (h : Told r t) (hr : PortsKept r) : PortsKept t := by
  induction h with
  | refl => exact hr
  | note p k d _ ih => exact portsKept_set p (portKept_modify _ (fun _ => recordKept_noteRecord d) (ih p)) ih

section
variable (p : Port) (pl : List Byte) {s : State}

/-- EVENT_TAKE clears a record and keeps its level (R30). -/
theorem portsKept_eventTake (h : PortsKept s.router) : PortsKept (eventTake p pl s).1.router := by
  unfold eventTake
  dsimp only
  split
  · exact h
  · exact portsKept_set p (portKept_modify _ (fun _ he => recordKept_clear he.1) (h p)) h

/-- ROUTE_SET takes a level 0..3 only (R32). -/
theorem portsKept_routeSet (h : PortsKept s.router) : PortsKept (routeSet p pl s).1.router := by
  unfold routeSet
  split
  · exact h
  · next hok => exact portsKept_set p (portKept_modify _ (fun _ => recordKept_routedRecord (by omega)) (h p)) h

/-- FLOOR_SET takes a floor 0..3 only (R33). -/
theorem portsKept_floorSet (h : PortsKept s.router) : PortsKept (floorSet p pl s).1.router := by
  unfold floorSet
  split
  · exact h
  · next hok => exact portsKept_set p ⟨Nat.le_of_not_lt hok, (h p).2⟩ h

end

theorem portKept_reset : PortKept RouterPort.reset :=
  ⟨Nat.zero_le _, rfl, fun _ he => List.eq_of_mem_replicate he ▸ recordKept_clear (by decide)⟩

theorem routing_powerOn (pins : Pins) : Routing (State.powerOn pins) := fun p => by
  rw [powerOn_router]
  exact portKept_reset

/-- Every command keeps the records well kept. -/
theorem routing_exec {c : Instr} {s t : State} (hs : Routing s) (h : exec c s = .next t) : Routing t := by
  rw [routing_iff] at hs ⊢
  cases hc : routerCommand c with
  | false => exact portsKept_told (told_exec hc h) hs
  | true =>
    cases c
    case deviceReset => cases h; exact routing_powerOn s.pins
    case eventTake f => cases h; exact serve_keeps_router portsKept_eventTake hs
    case routeSet f => cases h; exact serve_keeps_router portsKept_routeSet hs
    case floorSet f => cases h; exact serve_keeps_router portsKept_floorSet hs
    all_goals cases hc

/-! ### Steps -/

/-- The expiry picked is one that is due (log 2). -/
theorem mem_of_pick {s : State} {ds : List Instr} {c : Instr} (h : pick s ds = some c) : c ∈ ds := by
  unfold pick at h
  split at h
  · cases h
  · cases h; exact List.mem_singleton_self _
  · exact List.mem_of_getElem? h

/-- What a step that answers a next state is: a millisecond, an expiry taken on an empty queue, or the command at the
queue's front (log 1, log 2). -/
theorem step_cases {s t : State} (h : step s = .next t) :
    (s.pending = [] ∧ t = tick s) ∨ (s.pending = [] ∧ ∃ c ∈ dueNow s, exec c s.nextFree = .next t) ∨
      ∃ c rest, s.pending = c :: rest ∧ exec c (s.withPending rest) = .next t := by
  unfold step at h
  split at h
  · next hq =>
    unfold idle at h
    split at h
    · cases h; exact Or.inl ⟨hq, rfl⟩
    · next c hc => exact Or.inr (Or.inl ⟨hq, c, mem_of_pick hc, h⟩)
  · next c rest hq => exact Or.inr (Or.inr ⟨c, rest, hq, h⟩)

theorem routing_step {s t : State} (hs : Routing s) (h : step s = .next t) : Routing t := by
  rcases step_cases h with ⟨-, rfl⟩ | ⟨-, c, -, hc⟩ | ⟨c, rest, -, hc⟩
  · exact hs
  · exact routing_exec (s := s.nextFree) hs hc
  · exact routing_exec (s := s.withPending rest) hs hc

/-! ### The laws after a device reset -/

section
variable (pins : Pins)

theorem references_powerOn : References (State.powerOn pins) := by
  refine ⟨rfl, fun i => ?_, fun i hi => ?_, fun i hi => ?_⟩
  · rw [powerOn_slot]; rfl
  · rw [powerOn_slot] at hi; exact absurd hi (Nat.lt_irrefl 0)
  · cases hi

theorem orders_powerOn : Orders (State.powerOn pins) :=
  ⟨List.nodup_nil, fun _ h => absurd h List.not_mem_nil, ⟨Nat.le_refl 1, Nat.le_add_left 1 254⟩,
    fun h => absurd h Bool.false_ne_true, fun _ h => absurd h List.not_mem_nil⟩

theorem capacity_powerOn : Capacity (State.powerOn pins) :=
  ⟨Nat.zero_le _, Nat.zero_le _, Nat.zero_le _, Nat.zero_le _, Nat.zero_le _, fun h => absurd h.1 Bool.false_ne_true⟩

theorem zoneDuty_reset : zoneDuty Zone.reset :=
  ⟨Nat.zero_le _, Nat.zero_le _, fun h => absurd h Bool.false_ne_true⟩

theorem duty_powerOn : Duty (State.powerOn pins) := fun z => by
  rw [powerOn_zone]
  exact zoneDuty_reset

theorem speed_powerOn : Speed (State.powerOn pins) := by
  refine ⟨fun _ => rfl, ?_, Nat.zero_le _, Nat.zero_le _⟩
  show 0 = 0 * 4095 / 120
  decide

theorem carries_powerOn : Carries (State.powerOn pins) := ⟨Nat.one_pos, Nat.one_pos⟩

theorem jointFlags_powerOn : JointFlags (State.powerOn pins) := fun h => absurd h Bool.false_ne_true

/-- Thirty-two empty cells (R126). -/
theorem ring_powerOn : Ring (State.powerOn pins) := by
  refine ⟨rfl, Nat.le_add_left 16 16, fun c hc => ?_⟩
  cases List.eq_of_mem_replicate hc

end

end Sys2Proof.Machine
end

section
/-! PROOFS. The statements of chapter 2: events and attention. -/

namespace Sys2Proof.Proofs

open Sys2Proof.Machine Sys2Proof.Safety

/-- Settles O57: a command either only tells the router of occurrences, or is one of the four that change it
themselves. -/
theorem routingKept : Obligations.RoutingKept := fun _ _ => routing_step

/-- Settles O12: the record of the kind is the one that `noteRecord` changes. -/
theorem occurrences : Obligations.Occurrences := by
  refine ⟨fun k d s p hlen => ?record, attention_iff⟩
  obtain ⟨e, he⟩ : ∃ e, (s.router.get p).records[eventNumber k]? = some e :=
    ⟨_, List.getElem?_eq_getElem (hlen.symm ▸ eventNumber_lt k)⟩
  refine ⟨e, noteRecord d e, he, ?records, ?floor, noteRecord_level d e, noteRecord_unrouted d, fun h => ?routed⟩
  case records => rw [raise_port]; exact modify_eq_set _ _ _ _ he
  case floor => rw [raise_port]; rfl
  case routed => rw [noteRecord_routed d h]; exact ⟨rfl, rfl, rfl⟩

/-- Settles O13: the selection of R29 on the received frame's state, whose router is that of `s`. -/
theorem eventTake : Obligations.EventTake := by
  intro p extra s f rs
  have hexec := exec_eventTake (f := f) s (Nat.zero_le _) rfl
  refine ⟨fun pl hp hpl => ?length, fun hnone => ?empty, fun i e hi hset hway => ?taken⟩
  case length =>
    exact congrArg Host.Outcome.next (serve_badLength s hp (Or.inl rfl) (by simpa [exactly] using hpl))
  case empty =>
    have hblock := eventTake_empty (p := p) (s := received 0x03 f s) [] hnone
    exact hexec.trans (congrArg _ (answeredBy_same hblock))
  case taken =>
    have hblock := eventTake_selected (p := p) (s := received 0x03 f s) [] hi hset hway
    exact hexec.trans (congrArg _ (answeredBy_router hblock))

/-- Settles O14: the refusals, then the one record that ROUTE_SET changes and the attention it gives. -/
theorem routeSet : Obligations.RouteSet := by
  intro p k l extra s f rs
  have hexec := exec_routeSet (f := f) s (by simp [f]) rfl
  refine ⟨fun pl hp hl => ?length, fun hbad => ?refused, fun e hk hl he => ?taken⟩
  case length =>
    exact congrArg Host.Outcome.next (serve_badLength s hp (Or.inl rfl) (by simpa [exactly] using hl))
  case refused =>
    have hblock := routeSet_refused (p := p) (s := received 0x04 f s) hbad
    exact hexec.trans (congrArg _ (answeredBy_same hblock))
  case taken =>
    have hblock := routeSet_taken (p := p) (s := received 0x04 f s) hk hl he
    rw [routedRecord_byte] at hblock
    exact ⟨_, hexec.trans (congrArg _ (answeredBy_router hblock)), rfl, attention_answered 0x04 f _ s _⟩

/-- Settles O15: the refusals, then the floor that FLOOR_SET changes and the attention it gives. -/
theorem floorSet : Obligations.FloorSet := by
  intro f s hp
  refine ⟨fun hl => ?length, fun v hv hbad => ?refused, fun v hv hok => ?taken⟩
  case length =>
    exact congrArg Host.Outcome.next (serve_badLength s hp (Or.inl rfl) (by simpa [exactly] using hl))
  case refused =>
    have hblock := floorSet_refused (p := f.port) (s := received 0x05 f s) hbad
    rw [← hv] at hblock
    exact (exec_floorSet s hp (by simp [exactly, hv])).trans (congrArg _ (answeredBy_same hblock))
  case taken =>
    have hblock := floorSet_taken (p := f.port) (s := received 0x05 f s) hok
    rw [← hv] at hblock
    exact ⟨_, (exec_floorSet s hp (by simp [exactly, hv])).trans (congrArg _ (answeredBy_router hblock)), rfl,
      attention_answered 0x05 f _ s _⟩

/-- Settles O60: a device reset gives every law, whatever the pins. -/
theorem lawsAtReset : Obligations.LawsAtReset :=
  ⟨rfl, references_powerOn _, orders_powerOn _, capacity_powerOn _, duty_powerOn _, speed_powerOn _,
    carries_powerOn _, routing_powerOn _, jointFlags_powerOn _, ring_powerOn _⟩

end Sys2Proof.Proofs
end

section
/-! SUPPORT. What the part holds and how it changes: the pattern slots, the run queue, and how full the tracker's
collections are, with every change of them a step or its cascade can make (R37, R42 to R53, R62, R86 to R96). -/

namespace Sys2Proof.Machine

open Sys2Proof.Safety

/-! ### The inventory of a state -/

/-- The slots, the run queue, the number of entries of each collection, and the work in formation. -/
structure Inventory where
  slots : List Slot
  load : Option (Fin 16)
  orders : List Order
  active : Bool
  nextId : Nat
  joints : Nat
  records : Nat
  reports : Nat
  marks : Nat
  panel : Bool
  bridge : Bool

/-- The inventory of a state. -/
def inventory (s : State) : Inventory :=
  { slots := s.store.slots, load := s.store.load, orders := s.queue.orders, active := s.queue.active,
    nextId := s.queue.nextId, joints := s.tracker.joints.length, records := s.tracker.table.length,
    reports := s.tracker.reports.length, marks := s.tracker.map.length, panel := s.former.panel.isSome,
    bridge := bridgeRunning s.former }

/-- The places of the map that are spoken for: the marks, and the end mark of the work in formation (R62, R88). -/
def Inventory.places (v : Inventory) : Nat := v.marks + if v.panel || v.bridge then 1 else 0

/-- The slots with one reference to `i` fewer (R50). -/
def unreferenced (i : Fin 16) (slots : List Slot) : List Slot :=
  slots.modify i.val fun sl => { sl with refs := sl.refs - 1 }

/-- The slots with one reference to `i` more (R37). -/
def referenced (i : Fin 16) (slots : List Slot) : List Slot :=
  slots.modify i.val fun sl => { sl with refs := sl.refs + 1 }

/-- An order without the flags that a cancel and a freeze set. -/
def orderBody (o : Order) : Order := { o with cancel := false, frozen := false }

/-- One change of the inventory, with what the machine has checked when it makes it. -/
inductive Move (v : Inventory) : Inventory → Prop
  /-- Work in formation may rest or end without a mark being owed. -/
  | rested (p b : Bool) (hp : p = true → v.panel = true) (hb : b = true → v.bridge = true) :
      Move v { v with panel := p, bridge := b }
  /-- The head order becomes active (R47). -/
  | activated (h : v.orders ≠ []) : Move v { v with active := true }
  /-- A completed panel is counted and leaves panels to form (R48). -/
  | counted (o : Order) (os : List Order) (ho : v.orders = o :: os)
      (h : ¬(o.count ≠ 0 ∧ o.count ≤ bump16 o.done)) :
      Move v { v with orders := { o with done := bump16 o.done } :: os }
  /-- Flags of orders change (R46, R53). -/
  | flagged (os : List Order) (h : os.map orderBody = v.orders.map orderBody) : Move v { v with orders := os }
  /-- An order leaves the queue; another is active behind it only if it was before (R46, R50, R51). -/
  | left (before : List Order) (o : Order) (after : List Order) (b : Bool) (ho : v.orders = before ++ o :: after)
      (hb : b = true → v.active = true ∧ before ≠ []) :
      Move v { v with orders := before ++ after, active := b, slots := unreferenced o.pattern v.slots }
  /-- An order joins the queue (R44, R45). -/
  | joined (o : Order) (h : v.orders.length < 8) (hid : o.id = freshId v.orders 8 v.nextId) (hc : o.count ≤ 65535)
      (hd : o.done = 0) (hs : (v.slots.getD o.pattern.val Slot.cleared).state = .valid) :
      Move v { v with
        orders := v.orders ++ [o], nextId := idAfter o.id, slots := referenced o.pattern v.slots }
  /-- Everything produced is discarded (R187). -/
  | cleared :
      Move v { v with
        slots := v.slots.map fun sl => { sl with refs := 0 }, orders := [], active := false, joints := 0,
        records := 0, reports := 0, marks := 0, panel := false, bridge := false }
  /-- A joint is tracked while the list has a place (R86, R87). -/
  | jointCame (h : v.joints < 4) : Move v { v with joints := v.joints + 1 }
  /-- Joints have passed (R89). -/
  | jointsWent (n : Nat) (h : n ≤ v.joints) : Move v { v with joints := n }
  /-- A mark without a claim to the place kept for an end mark (R88). -/
  | marked (h : v.places < 64) : Move v { v with marks := v.marks + 1 }
  /-- Marks have passed the knife (R92). -/
  | markWent (n : Nat) (h : n ≤ v.marks) : Move v { v with marks := n }
  /-- A report joins the queue; its record leaves the table (R95). -/
  | reported (n : Nat) (hn : n ≤ v.records) (h : v.reports < 16) :
      Move v { v with records := n, reports := v.reports + 1 }
  /-- A report is taken (R97). -/
  | reportTaken (n : Nat) (h : n ≤ v.reports) : Move v { v with reports := n }
  /-- A panel begins, with a record and the places of its two marks (R62, R64). -/
  | panelBegun (h : v.panel = false ∧ v.bridge = false) (hr : v.records < 32) (hm : v.marks + 4 ≤ 64) :
      Move v { v with records := v.records + 1, marks := v.marks + 1, panel := true, bridge := false }
  /-- A bridge begins, with the places of its two marks (R62, R77). -/
  | bridgeBegun (h : v.panel = false ∧ v.bridge = false) (hm : v.marks + 2 ≤ 64) :
      Move v { v with marks := v.marks + 1, bridge := true }
  /-- A panel ends with its mark (R71, R76). -/
  | panelEnded (h : v.panel = true) : Move v { v with marks := v.marks + 1, panel := false }
  /-- A bridge ends with its mark (R78, R79). -/
  | bridgeEnded (h : v.bridge = true) : Move v { v with marks := v.marks + 1, bridge := false }

/-- Any number of changes, one after another. -/
abbrev Moves (v w : Inventory) : Prop := Relation.ReflTransGen Move v w

section
variable {v : Inventory} {s : State}

/-- A choice between two states that the changes reach both. -/
theorem moves_ite {c : Prop} [Decidable c] {a b : State} (ha : Moves v (inventory a)) (hb : Moves v (inventory b)) :
    Moves v (inventory (if c then a else b)) := by
  split
  · exact ha
  · exact hb

theorem moves_foldl {α : Type} {f : State → α → State}
    (hf : ∀ a {u : State}, Moves v (inventory u) → Moves v (inventory (f u a))) (as : List α) {s : State}
    (h : Moves v (inventory s)) : Moves v (inventory (as.foldl f s)) := by
  induction as generalizing s with
  | nil => exact h
  | cons a as ih => exact ih (hf a h)

/-- The former changes and begins no work. -/
theorem moves_onFormer {g : Former → Former} (hp : (g s.former).panel.isSome = true → s.former.panel.isSome = true)
    (hb : bridgeRunning (g s.former) = true → bridgeRunning s.former = true) (h : Moves v (inventory s)) :
    Moves v (inventory (s.onFormer g)) := h.tail (.rested _ _ hp hb)

/-- The former goes on with no bridge. -/
theorem moves_former_next {g : Former → Former} (hp : (g s.former).panel = s.former.panel)
    (hs : bridgeRunning (g s.former) = false) (h : Moves v (inventory s)) : Moves v (inventory (s.onFormer g)) :=
  moves_onFormer (by rw [hp]; exact id) (by rw [hs]; intro hn; cases hn) h

/-! ### Records, marks and joints -/

theorem inventory_onPanel (n : BitVec 16) (f : PanelRec → PanelRec) (s : State) :
    inventory (onPanel n f s) = inventory s := by simp [inventory, onPanel]

theorem inventory_onFormingPanel (f : PanelRec → PanelRec) (s : State) :
    inventory (onFormingPanel f s) = inventory s := by
  unfold onFormingPanel; split
  · rfl
  · exact inventory_onPanel _ f s

theorem inventory_flagJoints (s : State) : inventory (flagJoints s) = inventory s := by
  unfold flagJoints; split
  · exact inventory_onFormingPanel _ s
  · rfl

theorem moves_flagJoints (h : Moves v (inventory s)) : Moves v (inventory (flagJoints s)) := by
  rwa [inventory_flagJoints]

theorem inventory_chooseTarget (s : State) : inventory (chooseTarget s) = inventory s := by
  unfold chooseTarget; split <;> rfl

theorem inventory_cutSeesEnd (s : State) : inventory (cutSeesEnd s) = inventory s := by
  unfold cutSeesEnd; split
  · exact inventory_chooseTarget s
  · rfl

theorem inventory_cutSeesStart (s : State) : inventory (cutSeesStart s) = inventory s := by
  unfold cutSeesStart; split
  · rfl
  · split
    · split
      · rfl
      · dsimp only; split <;> rfl
    · rfl

theorem inventory_writeMark (k : MarkKind) (p : Option (BitVec 16)) (s : State) :
    inventory (writeMark k p s) = { inventory s with marks := (inventory s).marks + 1 } := by
  simp [inventory, writeMark]

theorem inventory_closePanel (n : BitVec 16) (a : Bool) (s : State) :
    inventory (closePanel n a s) = { inventory s with marks := (inventory s).marks + 1 } := by
  rw [closePanel, inventory_cutSeesEnd, inventory_onPanel, inventory_writeMark]

theorem moves_markJoint (h : Moves v (inventory s)) : Moves v (inventory (markJoint s)) := by
  unfold markJoint
  dsimp only
  split
  · exact h
  · next hroom =>
    rw [inventory_writeMark]
    refine h.tail (.marked ?_)
    show s.tracker.map.length + (if workInFormation s.former then 1 else 0) < 64
    cases hw : workInFormation s.former <;> simp only [hw, and_true] at hroom ⊢ <;> simp at hroom ⊢ <;> omega

theorem moves_markArrivals (g : RollGeometry) (p : Pos) (es : List Joint) {s : State} (h : Moves v (inventory s)) :
    Moves v (inventory (markArrivals g p es s)) := by
  induction es generalizing s with
  | nil => exact h
  | cons e es ih => exact ih (moves_ite (moves_markJoint h) h)

theorem moves_arriveJoints (h : Moves v (inventory s)) : Moves v (inventory (arriveJoints s)) := by
  have hu := moves_markArrivals s.roll.geo s.tracker.pIn s.tracker.joints h
  refine hu.tail ?_
  have := Move.jointsWent (v := inventory (markArrivals s.roll.geo s.tracker.pIn s.tracker.joints s)) _ le_rfl
  simpa [inventory, arriveJoints] using this

theorem moves_passJoints (h : Moves v (inventory s)) : Moves v (inventory (passJoints s).1) :=
  (moves_flagJoints h).tail (.jointsWent _ (List.length_filter_le _ _))

theorem moves_addJoint (x : Pos) (u : Bool) (h : Moves v (inventory s)) : Moves v (inventory (addJoint x u s)) := by
  by_cases hj : 4 ≤ s.tracker.joints.length
  · have he : inventory (addJoint x u s) = inventory s := by simp [inventory, addJoint, hj]
    rwa [he]
  · have he : inventory (addJoint x u s) = { inventory s with joints := (inventory s).joints + 1 } := by
      simp [inventory, addJoint, hj]
    rw [he]
    exact h.tail (.jointCame (Nat.lt_of_not_le hj))

/-! ### Reports -/

theorem inventory_queueReport (r : PanelRec) (s : State) :
    inventory (queueReport r s) =
      { inventory s with
        records := (s.tracker.table.eraseP fun q => q.number == r.number).length
        reports := (inventory s).reports + 1 } := by
  unfold queueReport
  dsimp only
  split <;> simp [inventory, raise]

theorem moves_queueReport (r : PanelRec) (hr : s.tracker.reports.length < 16) (h : Moves v (inventory s)) :
    Moves v (inventory (queueReport r s)) := by
  rw [inventory_queueReport]
  exact h.tail (.reported _ (List.eraseP_sublist.length_le) hr)

theorem moves_awaitReport (n : BitVec 16) (h : Moves v (inventory s)) : Moves v (inventory (awaitReport n s)) := by
  have he : inventory (awaitReport n s) = inventory s := inventory_onPanel n _ s
  rwa [he]

theorem moves_panelAtKnife (n : BitVec 16) (h : Moves v (inventory s)) : Moves v (inventory (panelAtKnife n s).1) := by
  unfold panelAtKnife; split
  · exact h
  · split
    · next hr => exact moves_queueReport _ hr.1 h
    · exact moves_awaitReport n h

theorem moves_passKnife (h : Moves v (inventory s)) : Moves v (inventory (passKnife s).1) := by
  unfold passKnife; split
  · exact h
  · next m ms hm =>
    split
    · have hw : Moves v (inventory (s.onTracker fun t => { t with map := ms })) :=
        h.tail (.markWent ms.length (by simp [inventory, hm]))
      dsimp only; split
      · exact moves_panelAtKnife _ hw
      · exact hw
    · exact h

theorem moves_makeWaitingReport (h : Moves v (inventory s)) : Moves v (inventory (makeWaitingReport s).1) := by
  unfold makeWaitingReport; split
  · exact h
  · split
    · next hr => exact moves_queueReport _ hr h
    · exact h

/-! ### The run queue -/

theorem moves_queuedFell (h : Moves v (inventory s)) : Moves v (inventory (queuedFell s)) := moves_ite h h

theorem moves_activate (h : Moves v (inventory s)) : Moves v (inventory (activate s)) := by
  unfold activate; split
  · exact h
  · next hn =>
    refine moves_queuedFell (h.tail (.activated ?_))
    intro he
    have he' : s.queue.orders = [] := he
    simp [he'] at hn

/-- The order at the head is taken off the queue (R51). -/
theorem inventory_retire {o : Order} {os : List Order} (k : Nat) (h : s.queue.orders = o :: os) :
    inventory (retire k s) =
      { inventory s with orders := os, active := false, slots := unreferenced o.pattern (inventory s).slots } := by
  unfold retire; rw [h]; rfl

theorem moves_retire (k : Nat) (h : Moves v (inventory s)) : Moves v (inventory (retire k s)) := by
  cases ho : s.queue.orders with
  | nil => unfold retire; rw [ho]; exact h
  | cons o os =>
    rw [inventory_retire k ho]
    exact h.tail (.left [] o os false ho (by simp))

/-- What the count of a completed panel makes of the inventory (R48). -/
def Inventory.counted (v : Inventory) : Inventory :=
  match v.orders with
  | [] => v
  | o :: os =>
    if (o.count ≠ 0 ∧ o.count ≤ bump16 o.done) ∨ o.cancel = true then
      { v with orders := os, active := false, slots := unreferenced o.pattern v.slots }
    else { v with orders := { o with done := bump16 o.done } :: os }

theorem inventory_countPanel (s : State) : inventory (countPanel s) = (inventory s).counted := by
  unfold countPanel Inventory.counted
  dsimp only
  cases ho : s.queue.orders with
  | nil => simp [inventory, onHead, headOrder, ho]
  | cons o os =>
    have hh : (onHead (fun o => { o with done := bump16 o.done }) s).queue.orders =
        { o with done := bump16 o.done } :: os := by simp [onHead, ho]
    have hi : (inventory s).orders = o :: os := ho
    simp only [headOrder, hh, List.head?_cons, hi]
    by_cases hc : o.count ≠ 0 ∧ o.count ≤ bump16 o.done
    · rw [if_pos hc, if_pos (Or.inl hc), inventory_retire 0 hh]; rfl
    · rw [if_neg hc]
      cases hcan : o.cancel with
      | true => rw [if_pos rfl, if_pos (Or.inr rfl), inventory_retire 1 hh]; rfl
      | false =>
        rw [if_neg Bool.false_ne_true, if_neg (by simpa using hc)]
        simp [inventory, onHead, ho, hcan]

theorem moves_counted {w : Inventory} (h : Moves v w) : Moves v w.counted := by
  unfold Inventory.counted; split
  · exact h
  · next o os ho =>
    split
    · exact h.tail (.left [] o os false ho (by simp))
    · next hc => exact h.tail (.counted o os ho fun hn => hc (Or.inl hn))

/-- What the abort of a panel makes of the inventory's queue (R49). -/
def Inventory.abortCounted (v : Inventory) : Inventory :=
  match v.orders with
  | [] => v
  | o :: os =>
    if o.cancel = true then { v with orders := os, active := false, slots := unreferenced o.pattern v.slots } else v

theorem inventory_countAborted (s : State) : inventory (countAborted s) = (inventory s).abortCounted := by
  unfold countAborted Inventory.abortCounted headOrder
  cases ho : s.queue.orders with
  | nil => simp [inventory, ho]
  | cons o os =>
    have hi : (inventory s).orders = o :: os := ho
    simp only [List.head?_cons, hi]
    split
    · exact inventory_retire 1 ho
    · rfl

theorem moves_abortCounted {w : Inventory} (h : Moves v w) : Moves v w.abortCounted := by
  unfold Inventory.abortCounted; split
  · exact h
  · next o os ho =>
    split
    · exact h.tail (.left [] o os false ho (by simp))
    · exact h

theorem orderBody_freezeThrough (id : Nat) (os : List Order) :
    (freezeThrough id os).map orderBody = os.map orderBody := by
  induction os with
  | nil => rfl
  | cons o os ih =>
    unfold freezeThrough
    split
    · simp [orderBody, Function.comp_def]
    · rw [List.map_cons, ih]; rfl

theorem orderBody_frozenBy (n : Option Nat) (os : List Order) :
    (frozenBy n os).map orderBody = os.map orderBody := by
  cases n with
  | none => simp [frozenBy, orderBody, Function.comp_def]
  | some id => exact orderBody_freezeThrough id os

theorem moves_nameFreeze (n : Option Nat) (h : Moves v (inventory s)) : Moves v (inventory (nameFreeze n s)) :=
  h.tail (.flagged _ (orderBody_frozenBy n _))

end

end Sys2Proof.Machine
end

section
/-! SUPPORT. The production side of the part: slots, run queue, former and tracker.  The zones, the monitor, the planner
and the line's own work leave it alone, but for the frozen flags that the planner gives and takes (R53). -/

namespace Sys2Proof.Machine

open Sys2Proof.Safety

/-- An order without its frozen flag. -/
def thawed (o : Order) : Order := { o with frozen := false }

/-- The slots, the queue without its frozen flags, the former and the tracker. -/
def production (s : State) : Store × RunQueue × Former × Tracker :=
  (s.store, { s.queue with orders := s.queue.orders.map thawed }, s.former, s.tracker)

theorem production_former {s t : State} (h : production t = production s) : t.former = s.former :=
  congrArg (fun p => p.2.2.1) h

theorem production_tracker {s t : State} (h : production t = production s) : t.tracker = s.tracker :=
  congrArg (fun p => p.2.2.2) h

theorem production_store {s t : State} (h : production t = production s) : t.store = s.store :=
  congrArg (fun p => p.1) h

theorem production_orders {s t : State} (h : production t = production s) :
    t.queue.orders.map thawed = s.queue.orders.map thawed := congrArg (fun p => p.2.1.orders) h

theorem production_active {s t : State} (h : production t = production s) : t.queue.active = s.queue.active :=
  congrArg (fun p => p.2.1.active) h

theorem production_nextId {s t : State} (h : production t = production s) : t.queue.nextId = s.queue.nextId :=
  congrArg (fun p => p.2.1.nextId) h

/-- What leaves the production side alone changes the inventory by flags of orders at most. -/
theorem moves_of_production {v : Inventory} {s t : State} (h : production t = production s)
    (hv : Moves v (inventory s)) : Moves v (inventory t) := by
  have hf := production_former h
  have ht := production_tracker h
  have hs := production_store h
  have ho := congrArg (List.map orderBody) (production_orders h)
  have he : inventory t = { inventory s with orders := t.queue.orders } := by
    simp only [inventory, hf, ht, hs, production_active h, production_nextId h]
  rw [he]
  refine hv.tail (.flagged _ ?_)
  rw [List.map_map, List.map_map] at ho
  exact ho

section
variable (s : State)

@[simp] theorem production_onRouter (f : Three RouterPort → Three RouterPort) :
    production (s.onRouter f) = production s := rfl
@[simp] theorem production_raise (k : EventKind) (d : List Byte) : production (raise k d s) = production s := rfl
@[simp] theorem production_onPins (f : Pins → Pins) : production (s.onPins f) = production s := rfl
@[simp] theorem production_onSup (f : Supervisor → Supervisor) : production (s.onSup f) = production s := rfl
@[simp] theorem production_onZone (z : Fin 4) (f : Zone → Zone) : production (s.onZone z f) = production s := rfl
@[simp] theorem production_onZoneMonitor (z : Fin 4) (f : ZoneMonitor → ZoneMonitor) :
    production (s.onZoneMonitor z f) = production s := rfl
@[simp] theorem production_onMonitor (f : Monitor → Monitor) : production (s.onMonitor f) = production s := rfl
@[simp] theorem production_onDose (f : Dose → Dose) : production (s.onDose f) = production s := rfl
@[simp] theorem production_onCut (f : Cut → Cut) : production (s.onCut f) = production s := rfl
@[simp] theorem production_onPlanner (f : Planner → Planner) : production (s.onPlanner f) = production s := rfl
@[simp] theorem production_withSettled (b : Bool) : production (s.withSettled b) = production s := rfl

theorem production_foldl {α : Type} {f : State → α → State} (hf : ∀ a u, production (f u a) = production u)
    (as : List α) : production (as.foldl f s) = production s := by
  induction as generalizing s with
  | nil => rfl
  | cons a as ih => exact (ih _).trans (hf a s)

/-! ### Queue and cuts -/

theorem thawed_frozenBy (n : Option Nat) (os : List Order) : (frozenBy n os).map thawed = os.map thawed := by
  have hthrough : ∀ id, (freezeThrough id os).map thawed = os.map thawed := by
    intro id
    induction os with
    | nil => rfl
    | cons o os ih =>
      unfold freezeThrough
      split
      · simp [thawed, Function.comp_def]
      · rw [List.map_cons, ih]; rfl
  cases n with
  | none => simp [frozenBy, thawed, Function.comp_def]
  | some id => exact hthrough id

@[simp] theorem production_nameFreeze (n : Option Nat) : production (nameFreeze n s) = production s := by
  simp [production, nameFreeze, thawed_frozenBy]

@[simp] theorem production_queuedFell : production (queuedFell s) = production s := by
  unfold queuedFell; split <;> simp

@[simp] theorem production_chooseTarget : production (chooseTarget s) = production s := by
  unfold chooseTarget; split <;> rfl

@[simp] theorem production_cutSeesEnd : production (cutSeesEnd s) = production s := by
  unfold cutSeesEnd; split <;> simp

@[simp] theorem production_cutSeesStart : production (cutSeesStart s) = production s := by
  unfold cutSeesStart; split
  · rfl
  · split
    · split
      · rfl
      · dsimp only; split <;> rfl
    · rfl

@[simp] theorem production_fireCut (k : Nat) (n : Option (BitVec 16)) : production (fireCut k n s) = production s := rfl

@[simp] theorem production_cutCompare : production (cutCompare s) = production s := by
  unfold cutCompare; split
  · rfl
  · split <;> rfl

@[simp] theorem production_withdrawCut : production (withdrawCut s) = production s := by
  unfold withdrawCut; split <;> rfl

/-! ### Zones and the tunnel recipe -/

@[simp] theorem production_handTarget (t : Nat) (z : Fin 4) : production (handTarget t z s) = production s := by
  unfold handTarget; split <;> rfl

@[simp] theorem production_retarget : production (retarget s) = production s :=
  production_foldl s (fun z u => production_handTarget u _ z) zonesInOrder

@[simp] theorem production_endTestOf (z : Fin 4) : production (endTestOf z s) = production s := by
  unfold endTestOf; split <;> rfl

@[simp] theorem production_tripZone (z : Fin 4) : production (tripZone z s) = production s := by
  unfold tripZone; split
  · simp [releaseReading]
  · rfl

@[simp] theorem production_probeFaultZone (z : Fin 4) : production (probeFaultZone z s) = production s := by
  unfold probeFaultZone; split <;> rfl

@[simp] theorem production_releaseTrip (z : Fin 4) : production (releaseTrip z s) = production s := by
  unfold releaseTrip; split <;> rfl

@[simp] theorem production_releaseProbe (z : Fin 4) : production (releaseProbe z s) = production s := by
  unfold releaseProbe; split <;> rfl

@[simp] theorem production_disableZone (z : Fin 4) : production (disableZone z s) = production s := by
  unfold disableZone; split
  · rfl
  · simp [releaseReading]

@[simp] theorem production_enableZone (z : Fin 4) : production (enableZone z s) = production s := by
  unfold enableZone; split <;> rfl

@[simp] theorem production_takeReading (z : Fin 4) (n : Nat) : production (takeReading z n s) = production s := by
  unfold takeReading; split
  · rfl
  · split <;> rfl

@[simp] theorem production_monitorAct (z : Fin 4) : production (monitorAct z s) = production s := by
  unfold monitorAct; dsimp only; split <;> simp

@[simp] theorem production_monitorSample (z : Fin 4) : production (monitorSample z s) = production s := by
  unfold monitorSample; dsimp only; split <;> simp

@[simp] theorem production_regulateZone (z : Fin 4) : production (regulateZone z s) = production s := by
  unfold regulateZone; dsimp only; split <;> simp

@[simp] theorem production_retryRelease (z : Fin 4) : production (retryRelease z s) = production s := by
  unfold retryRelease; dsimp only; split <;> simp

@[simp] theorem production_judgeTest (z : Fin 4) : production (judgeTest z s) = production s := by
  unfold judgeTest; split
  · rfl
  · split
    · simp [endTest]
    · rfl

@[simp] theorem production_testPeriod (z : Fin 4) : production (testPeriod z s) = production s := by
  unfold testPeriod; split
  · split <;> simp
  · rfl

@[simp] theorem production_regulationPeriod (z : Fin 4) : production (regulationPeriod z s) = production s := by
  simp [regulationPeriod, monitorPeriod]

@[simp] theorem production_reportSettled (f : Bool) : production (reportSettled f s).1 = production s := by
  unfold reportSettled; dsimp only; split
  · rfl
  · dsimp only; split <;> rfl

@[simp] theorem production_drainTest : production (drainTest s).1 = production s := by
  unfold drainTest; split
  · rfl
  · split <;> simp [quiet]

@[simp] theorem production_doseSample : production (doseSample s) = production s := by
  unfold doseSample; split
  · rfl
  · split <;> rfl

/-! ### The planner -/

@[simp] theorem production_testRollLow : production (testRollLow s) = production s := by
  unfold testRollLow; split
  · rfl
  · split <;> rfl

@[simp] theorem production_schedule (c : Candidate) : production (schedule c s) = production s := by
  simp [schedule, announce]

@[simp] theorem production_unschedule : production (unschedule s) = production s := by simp [unschedule]

@[simp] theorem production_forceSplice : production (forceSplice s) = production s := by simp [forceSplice, announce]

@[simp] theorem production_leaveFired : production (leaveFired s) = production s := by simp [leaveFired]

@[simp] theorem production_announceFailure (n : Nat) (p : Option Pos) :
    production (announceFailure n p s) = production s := rfl

@[simp] theorem production_offerCapture (x : Pos) : production (offerCapture x s) = production s := by
  unfold offerCapture; split
  · split <;> simp
  · rfl

@[simp] theorem production_search (b : Bool) : production (search b s).1 = production s := by
  unfold search; dsimp only; split
  · simp
  · rfl
  · split
    · rfl
    · split <;> simp [quiet]
  · split <;> simp [quiet]
  all_goals rfl

@[simp] theorem production_withdrawSplice (c : Option FailCause) :
    production (withdrawSplice c s).1 = production s := by
  unfold withdrawSplice; split
  · dsimp only; split <;> simp
  · rfl

@[simp] theorem production_deadlineTest : production (deadlineTest s).1 = production s := by
  unfold deadlineTest; split
  · split <;> simp [quiet]
  · rfl

@[simp] theorem production_approachTest : production (approachTest s).1 = production s := by
  unfold approachTest; split
  · split <;> rfl
  · rfl

@[simp] theorem production_fireTest : production (fireTest s).1 = production s := by
  unfold fireTest; split
  · split <;> rfl
  · rfl

@[simp] theorem production_windowTest : production (windowTest s).1 = production s := by
  unfold windowTest; split
  · split <;> simp [quiet]
  · rfl

@[simp] theorem production_dueExpiryTest : production (dueExpiryTest s).1 = production s := by
  unfold dueExpiryTest; split
  · rfl
  · split <;> rfl

@[simp] theorem production_jointPassed (x : Pos) : production (jointPassed x s).1 = production s := by
  unfold jointPassed; split <;> rfl

@[simp] theorem production_rollOutTest : production (rollOutTest s).1 = production s := by
  unfold rollOutTest; dsimp only; split
  · simp [quiet]
  · split <;> simp [quiet]

/-! ### The line -/

@[simp] theorem production_deriveHood : production (deriveHood s) = production s := by
  unfold deriveHood; dsimp only; split <;> rfl

@[simp] theorem production_commandHood (b : Bool) : production (commandHood b s) = production s := by
  simp [commandHood]

@[simp] theorem production_setLine (l : LineState) : production (setLine l s) = production s := by simp [setLine]

@[simp] theorem production_setCauses (c : HoldCauses) : production (setCauses c s) = production s := by
  unfold setCauses; split
  · rfl
  · dsimp only; split <;> rfl

@[simp] theorem production_withdrawCauses : production (withdrawCauses s) = production s := by simp [withdrawCauses]

/-- Every line state but STOPPED, whose entry ends a hold at a boundary (R74), is entered without the former. -/
theorem production_enterLine {l : LineState} (h : l ≠ .stopped) : production (enterLine l s).1 = production s := by
  unfold enterLine
  cases l
  case stopped => exact absurd rfl h
  case holding => dsimp only; split <;> simp
  all_goals simp [quiet]

@[simp] theorem production_tripLine (c : TripCause) : production (tripLine c s).1 = production s := by
  unfold tripLine; dsimp only; split
  · rfl
  · simp

@[simp] theorem production_hoodSeen : production (hoodSeen s).1 = production s := by
  unfold hoodSeen; split
  · exact production_enterLine s (by decide)
  · rfl

@[simp] theorem production_warmTest : production (warmTest s).1 = production s := by
  unfold warmTest; split
  · exact production_enterLine s (by decide)
  · rfl

@[simp] theorem production_causesChanged : production (causesChanged s).1 = production s := by
  unfold causesChanged; split
  · exact production_enterLine s (by decide)
  · split
    · refine (production_enterLine _ ?_).trans (production_onSup s _)
      split <;> decide
    · rfl

@[simp] theorem production_reportEnd : production (reportEnd s).1 = production s := by
  unfold reportEnd; split
  · exact production_enterLine s (by decide)
  · rfl

@[simp] theorem production_stopNow : production (stopNow s).1 = production s := by
  unfold stopNow; split
  case h_1 | h_2 | h_3 => rfl
  all_goals dsimp only [followedBy]; exact production_enterLine s (by decide)

@[simp] theorem production_takeHeatLimit : production (takeHeatLimit s) = production s := by
  unfold takeHeatLimit; dsimp only; split <;> simp

@[simp] theorem production_speedUpdate : production (speedUpdate s).1 = production s := by simp [speedUpdate]

@[simp] theorem production_speedSteps : production (speedSteps s) = production s := rfl

end

/-- The signals that reach no slot, order, former or tracker. -/
def apartSignal : Sig → Bool
  | .trip _ | .hoodSeen | .warm | .causes | .reportEnd | .settled _ | .drain | .space | .jointPassed _ | .search _
  | .deadline | .approach | .fire | .window | .dueExpiry | .rollOut | .cancelSplice _ => true
  | .stopCheck | .former | .boundary | .formerRun | .formerPause | .abort | .bridge | .joints | .jointsPast | .track _
  | .knife => false

/-- Such a signal leaves the production side alone. -/
theorem production_handle {g : Sig} (s : State) (h : apartSignal g = true) :
    production (handle g s).1 = production s := by
  cases g <;> simp only [handle]
  case space => unfold spaceTest; split <;> rfl
  case stopCheck | former | boundary | formerRun | formerPause | abort | bridge | joints | jointsPast | knife => cases h
  case track => cases h
  all_goals simp

end Sys2Proof.Machine
end

section
/-! SUPPORT. What every signal, every cascade and every command makes of the inventory: a list of its changes. -/

namespace Sys2Proof.Machine

open Sys2Proof.Safety

section
variable {v : Inventory} {s : State}

/-! ### The former -/

/-- The former's own change of the inventory. -/
theorem inventory_onFormer (g : Former → Former) (s : State) :
    inventory (s.onFormer g) =
      { inventory s with panel := (g s.former).panel.isSome, bridge := bridgeRunning (g s.former) } := rfl

theorem moves_leaveBoundaryHold (h : Moves v (inventory s)) : Moves v (inventory (leaveBoundaryHold s)) := by
  unfold leaveBoundaryHold; split
  · exact moves_of_production (production_withdrawCauses _) (moves_former_next rfl rfl h)
  · exact h

/-- STOPPED is entered with the end of a hold at a boundary (R74). -/
theorem moves_enterStopped (h : Moves v (inventory s)) : Moves v (inventory (enterLine .stopped s).1) := by
  unfold enterLine
  dsimp only
  refine moves_leaveBoundaryHold (moves_of_production (s := s) ?_ h)
  rw [production_commandHood, production_setLine, production_onSup]

theorem moves_enterLine (l : LineState) (h : Moves v (inventory s)) : Moves v (inventory (enterLine l s).1) := by
  by_cases hl : l = .stopped
  · subst hl; exact moves_enterStopped h
  · exact moves_of_production (production_enterLine s hl) h

theorem moves_stopCheck (h : Moves v (inventory s)) : Moves v (inventory (stopCheck s).1) := by
  unfold stopCheck; split
  · exact moves_enterLine .stopped h
  · exact h

theorem moves_beginLength (l : Nat) (h : Moves v (inventory s)) : Moves v (inventory (beginLength l s)) := h

theorem moves_enterTail (h : Moves v (inventory s)) : Moves v (inventory (enterTail s)) :=
  moves_beginLength _ (moves_former_next rfl rfl h)

theorem moves_enterFlat (i : Nat) (st : StepRec) (h : Moves v (inventory s)) : Moves v (inventory (enterFlat i st s)) :=
  moves_beginLength _ (moves_former_next rfl rfl h)

theorem moves_enterStep (i : Nat) (h : Moves v (inventory s)) : Moves v (inventory (enterStep i s)) := by
  unfold enterStep; split
  · exact moves_enterTail h
  · split
    · exact moves_former_next rfl rfl h
    · exact moves_enterFlat _ _ h

theorem moves_onFormingPanel (f : PanelRec → PanelRec) (h : Moves v (inventory s)) :
    Moves v (inventory (onFormingPanel f s)) := by rwa [inventory_onFormingPanel]

theorem moves_recordLate (h : Moves v (inventory s)) : Moves v (inventory (recordLate s)) :=
  moves_ite (moves_onFormingPanel _ h) h

theorem moves_enterFeed (st : StepRec) (h : Moves v (inventory s)) : Moves v (inventory (enterFeed st s)) := by
  have hs : Moves v (inventory ((beginLength (strokeLength st s.former.rep) s).onFormer fun f =>
      { f with
        state := .feed, depth := strokeDepth st s.former.rep, bladeSide := sideOf st,
        timer := some (feedTimeoutFor f.set (issuedCount s.former.set s.former.cIn (strokeLength st s.former.rep))) })) :=
    moves_former_next rfl rfl (moves_beginLength _ h)
  exact moves_ite (moves_onFormingPanel _ hs) hs

theorem moves_startStroke (h : Moves v (inventory s)) : Moves v (inventory (startStroke s).1) := by
  unfold startStroke; split
  · exact h
  · exact moves_enterFeed _ (moves_recordLate h)

theorem moves_afterStroke (h : Moves v (inventory s)) : Moves v (inventory (afterStroke s)) := by
  unfold afterStroke; split
  · split
    · exact moves_former_next rfl rfl h
    · split
      · exact moves_enterTail h
      · split
        · exact moves_former_next rfl rfl h
        · exact moves_enterFlat _ _ h
  · exact h

/-- A pause keeps the bridge, if one runs. -/
theorem bridgeRunning_pauseIn (f : Former) : bridgeRunning (pauseIn f.state f) = true → bridgeRunning f = true := by
  intro h
  have hs : f.state = .bridge := by simpa [bridgeRunning, pauseIn] using h
  simp [bridgeRunning, hs]

theorem moves_pause (h : Moves v (inventory s)) : Moves v (inventory (s.onFormer (pauseIn s.former.state))) :=
  moves_onFormer id (bridgeRunning_pauseIn _) h

theorem moves_endRetract (h : Moves v (inventory s)) : Moves v (inventory (endRetract s).1) := by
  unfold endRetract; split
  · exact h
  · have hs := moves_afterStroke (moves_onFormingPanel (fun r => { r with formed := bump16 r.formed })
      (s := s.onFormer fun f => { f with timer := none }) h)
    dsimp only
    split
    · exact moves_pause hs
    · split
      · exact moves_startStroke hs
      · exact hs

theorem moves_noteLate (h : Moves v (inventory s)) : Moves v (inventory (noteLate s)) := moves_ite h h

theorem moves_keepReached (h : Moves v (inventory s)) : Moves v (inventory (keepReached s)) := moves_ite h h

theorem moves_holdFor (r : HoldReason) (h : Moves v (inventory s)) : Moves v (inventory (holdFor r s)) :=
  moves_of_production (production_setCauses _ _) (moves_former_next rfl rfl h)

theorem moves_restIdle (h : Moves v (inventory s)) : Moves v (inventory (restIdle s)) :=
  moves_of_production (production_withdrawCauses _) (moves_former_next rfl rfl h)

/-- No work in formation, as the inventory tells it. -/
theorem noWork_iff (f : Former) : workInFormation f = false ↔ f.panel.isSome = false ∧ bridgeRunning f = false := by
  simp [workInFormation]

theorem moves_startBridge (i : Fin 4) (hw : workInFormation s.former = false) (hm : ¬freeMarks s < 2)
    (h : Moves v (inventory s)) : Moves v (inventory (startBridge i s)) := by
  have hroom : s.tracker.map.length + 2 ≤ 64 := by unfold freeMarks at hm; omega
  refine moves_of_production (production_withdrawCauses _) ?_
  have he := Move.bridgeBegun (v := inventory s) ((noWork_iff _).mp hw) hroom
  refine h.tail ?_
  simpa [inventory, writeMark, bridgeRunning] using he

theorem activate_former (s : State) : (activate s).former = s.former := by
  unfold activate; split
  · rfl
  · exact (production_former (production_queuedFell _)).trans rfl

theorem activate_tracker (s : State) : (activate s).tracker = s.tracker := by
  unfold activate; split
  · rfl
  · exact (production_tracker (production_queuedFell _)).trans rfl

theorem inventory_beginPanel (o : Order) (s : State) :
    inventory (beginPanel o s) = { inventory s with records := (inventory s).records + 1 } := by
  simp [inventory, beginPanel]

/-- A panel starts for the order at the head (R64). -/
theorem moves_startPanel (hw : workInFormation s.former = false) (hr : ¬freeRecords s = 0) (hm : ¬freeMarks s < 4)
    (h : Moves v (inventory s)) : Moves v (inventory (startPanel s)) := by
  have hact := moves_activate (moves_of_production (production_withdrawCauses s) h)
  have hf : (activate (withdrawCauses s)).former = s.former :=
    (activate_former _).trans (production_former (production_withdrawCauses s))
  have ht : (activate (withdrawCauses s)).tracker = s.tracker :=
    (activate_tracker _).trans (production_tracker (production_withdrawCauses s))
  unfold startPanel
  dsimp only
  split
  · exact hact
  · refine moves_beginLength _ (hact.tail ?_)
    rw [inventory_onFormer, inventory_cutSeesStart, inventory_writeMark, inventory_beginPanel]
    refine Move.panelBegun ?_ ?_ ?_
    · rw [← hf] at hw
      exact (noWork_iff _).mp hw
    · show (activate (withdrawCauses s)).tracker.table.length < 32
      rw [ht]; unfold freeRecords at hr; omega
    · show (activate (withdrawCauses s)).tracker.map.length + 4 ≤ 64
      rw [ht]; unfold freeMarks at hm; omega

theorem moves_boundaryTest (h : Moves v (inventory s)) : Moves v (inventory (boundaryTest s).1) := by
  unfold boundaryTest; split
  · exact h
  · next hw =>
    rw [Bool.not_eq_true] at hw
    split
    · exact moves_holdFor _ (moves_ite h h)
    · split
      · split
        · exact moves_holdFor _ h
        · next hm =>
          split
          · exact moves_startBridge _ hw hm h
          · exact moves_restIdle h
      · split
        · exact moves_holdFor _ h
        · next hroom =>
          rw [not_or] at hroom
          split
          · exact moves_startPanel hw hroom.1 hroom.2 h
          · exact moves_restIdle h

/-- The count of a panel looks at the queue alone. -/
theorem counted_work (v : Inventory) (p b : Bool) :
    { v.counted with panel := p, bridge := b } = ({ v with panel := p, bridge := b } : Inventory).counted := by
  obtain ⟨slots, load, orders, active, nextId, joints, records, reports, marks, panel, bridge⟩ := v
  cases orders with
  | nil => rfl
  | cons o os => dsimp only [Inventory.counted]; split <;> rfl

theorem moves_endPanel (hs : s.former.state = .tail) (h : Moves v (inventory s)) :
    Moves v (inventory (endPanel s).1) := by
  unfold endPanel; split
  · exact h
  · next n hn =>
    have hb : (inventory s).bridge = false := by simp [inventory, bridgeRunning, hs]
    have he := Move.panelEnded (v := inventory s) (congrArg Option.isSome hn)
    rw [hb] at he
    have hc := moves_counted (h.tail he)
    dsimp only
    rw [inventory_onFormer, inventory_countPanel, counted_work, inventory_closePanel]
    exact hc

theorem moves_bridgeTest (h : Moves v (inventory s)) : Moves v (inventory (bridgeTest s).1) := by
  unfold bridgeTest; split
  · next hs =>
    have he := Move.bridgeEnded (v := inventory s) (by simp [inventory, bridgeRunning, hs.1])
    refine h.tail ?_
    rw [inventory_onFormer, inventory_writeMark]
    exact he
  · exact h

theorem moves_endFollow (h : Moves v (inventory s)) : Moves v (inventory (endFollow s).1) := by
  unfold endFollow; split
  · exact moves_enterStep _ h
  · split
    · split
      · exact moves_beginLength _ h
      · exact moves_enterStep _ h
    · exact h
  · next hs => exact moves_endPanel hs h
  all_goals exact h

theorem moves_formerTest (h : Moves v (inventory s)) : Moves v (inventory (formerTest s).1) := by
  unfold formerTest; split
  case h_1 | h_2 | h_3 =>
    split
    · exact moves_endFollow h
    · exact h
  case h_4 =>
    split
    · exact moves_startStroke h
    · exact h
  case h_5 =>
    have hn := moves_noteLate h
    exact moves_ite (moves_former_next rfl rfl hn) hn
  case h_6 | h_7 => exact moves_noteLate h
  case h_8 =>
    split
    · exact moves_endRetract h
    · exact moves_noteLate h
  case h_9 => exact moves_keepReached h
  all_goals exact h

/-- Work that is resumed is the work that was held. -/
theorem bridgeRunning_resume {f : Former} (hs : f.state = .held)
    (h : bridgeRunning { f with state := f.resume.getD .idle, resume := none, hold := .none, reachedInStop := false } =
      true) : bridgeRunning f = true := by
  cases hr : f.resume with
  | none => simp [bridgeRunning, hr] at h
  | some r => simp_all [bridgeRunning]

theorem moves_formerRun (h : Moves v (inventory s)) : Moves v (inventory (formerRun s).1) := by
  unfold formerRun; split
  · exact h
  · split
    · exact h
    · next hs =>
      split
      · have hr : Moves v (inventory (resumed s)) := h.tail (.rested _ _ id (bridgeRunning_resume hs))
        rw [resumeWork_eq]
        split
        · exact moves_startStroke hr
        · exact hr
      · exact h
    all_goals exact h

theorem moves_formerPause (h : Moves v (inventory s)) : Moves v (inventory (formerPause s).1) := by
  unfold formerPause; split
  case h_6 => exact moves_leaveBoundaryHold h
  case h_1 | h_2 | h_3 | h_4 | h_5 => exact moves_pause h
  all_goals exact h

theorem inventory_abortPanel_some {n : BitVec 16} (h : s.former.panel = some n) :
    inventory (abortPanel s) = { inventory s with marks := (inventory s).marks + 1 }.abortCounted := by
  unfold abortPanel; rw [h]
  exact (inventory_countAborted _).trans (congrArg _ (inventory_closePanel n true s))

theorem abortCounted_work (v : Inventory) (p : Bool) :
    { v.abortCounted with panel := p } = ({ v with panel := p } : Inventory).abortCounted := by
  obtain ⟨slots, load, orders, active, nextId, joints, records, reports, marks, panel, bridge⟩ := v
  cases orders with
  | nil => rfl
  | cons o os => dsimp only [Inventory.abortCounted]; split <;> rfl

/-- The abort of a panel, with the panel out of formation (R49, R76). -/
theorem moves_abortPanel (h : Moves v (inventory s)) :
    Moves v { inventory (abortPanel s) with panel := false } := by
  cases hp : s.former.panel with
  | none =>
    have ha : abortPanel s = s := by unfold abortPanel; rw [hp]
    rw [ha]
    exact h.tail (.rested false _ (fun hn => by cases hn) id)
  | some n =>
    rw [inventory_abortPanel_some hp, abortCounted_work]
    exact moves_abortCounted (h.tail (.panelEnded (congrArg Option.isSome hp)))

theorem moves_formerAbort (h : Moves v (inventory s)) : Moves v (inventory (formerAbort s).1) := by
  unfold formerAbort
  dsimp only [quiet]
  refine moves_of_production (production_withdrawCauses _) ?_
  rw [inventory_onFormer]
  have hp := moves_abortPanel h
  unfold abortBridge
  split
  · next hb =>
    refine hp.tail ?_
    exact cast (congrArg (Move _) (by rw [show ∀ (f : Dose → Dose) (u : State),
      inventory (u.onDose f) = inventory u from fun _ _ => rfl, inventory_writeMark]; rfl)) (Move.bridgeEnded (v := { inventory (abortPanel s) with panel := false }) hb)
  · exact hp.tail (.rested false false (fun hn => by cases hn) (fun hn => by cases hn))

/-! ### Signals and cascades -/

theorem moves_handle (g : Sig) (h : Moves v (inventory s)) : Moves v (inventory (handle g s).1) := by
  by_cases hg : apartSignal g = true
  · exact moves_of_production (production_handle s hg) h
  cases g with
  | stopCheck => exact moves_stopCheck h
  | former => exact moves_formerTest h
  | boundary => exact moves_boundaryTest h
  | formerRun => exact moves_formerRun h
  | formerPause => exact moves_formerPause h
  | abort => exact moves_formerAbort h
  | bridge => exact moves_bridgeTest h
  | joints => exact moves_arriveJoints h
  | jointsPast => exact moves_passJoints h
  | track x => exact moves_addJoint x true h
  | knife => exact moves_passKnife h
  | _ => exact absurd rfl hg

theorem moves_settle {w : Work} (h : Moves v (inventory w.1)) : Moves v (inventory (settle w)) :=
  settle_keeps (P := fun s => Moves v (inventory s)) (fun _ => moves_flagJoints) (fun g _ => moves_handle g) w h

theorem moves_settle_signals {gs : List Sig} (h : Moves v (inventory s)) : Moves v (inventory (settle (s, gs))) :=
  moves_settle h

/-- What leaves the production side alone, then a cascade. -/
theorem moves_settle_production {w : Work} (hw : production w.1 = production s) (h : Moves v (inventory s)) :
    Moves v (inventory (settle w)) := moves_settle (moves_of_production hw h)

/-! ### Commands -/

/-- Around a block's work, serving a request leaves the inventory alone. -/
theorem moves_serve {kind : Byte} {auth : Option Port} {lengthOk : Nat → Bool}
    {block : Port → List Byte → State → State × Answer}
    (hb : ∀ p pl {s : State}, Moves v (inventory s) → Moves v (inventory (block p pl s).1)) {f : Frame}
    (h : Moves v (inventory s)) : Moves v (inventory (serve kind auth lengthOk block f s)) := by
  unfold serve
  dsimp only
  split
  · exact h
  · split
    · exact h
    · split
      · exact hb _ _ h
      · exact h

end

end Sys2Proof.Machine
end

section
/-! SUPPORT. What every command but the pattern loads and a device reset makes of the inventory. -/

namespace Sys2Proof.Machine

open Sys2Proof.Safety

section
variable {v : Inventory} (p : Port) (pl : List Byte) {s : State}

/-! ### Requests that leave the production side alone -/

theorem production_statusRead : production (statusRead p pl s).1 = production s := by
  unfold statusRead
  split
  case h_2 | h_5 => split <;> rfl
  case h_7 =>
    show production (afterSpliceView s) = production s
    unfold afterSpliceView; split <;> rfl
  all_goals rfl

theorem production_eventTake : production (eventTake p pl s).1 = production s := by
  unfold eventTake; dsimp only; split <;> rfl

theorem production_routeSet : production (routeSet p pl s).1 = production s := by
  unfold routeSet; split <;> rfl

theorem production_floorSet : production (floorSet p pl s).1 = production s := by
  unfold floorSet; split <;> rfl

theorem production_presenceSet : production (presenceSet p pl s).1 = production s := by
  unfold presenceSet; split <;> rfl

theorem production_motionSet : production (motionSet p pl s).1 = production s := by
  unfold motionSet; dsimp only; split
  · rfl
  · split <;> rfl

theorem production_recipeSet : production (recipeSet p pl s).1 = production s := by
  unfold recipeSet; dsimp only; split
  · rfl
  · split
    · rfl
    · split <;> rfl

theorem production_tunnelSet : production (tunnelSet p pl s).1 = production s := by
  unfold tunnelSet; dsimp only; split
  · rfl
  · split <;> rfl

theorem production_rollGeometrySet : production (rollGeometrySet p pl s).1 = production s := by
  unfold rollGeometrySet; dsimp only; split
  · rfl
  · split <;> rfl

theorem production_newInterval (n : Nat) : production (newInterval n s) = production s := by
  unfold newInterval; split
  · rfl
  · dsimp only; split
    · rfl
    · split <;> rfl

theorem production_monitorSet : production (monitorSet p pl s).1 = production s := by
  have hz : production (monitorSetZone pl s).1 = production s := by
    unfold monitorSetZone; dsimp only; split <;> rfl
  have hl : production (monitorSetLine pl s).1 = production s := by
    unfold monitorSetLine; split
    · rfl
    · exact production_newInterval (s := s) _
  unfold monitorSet; split
  · rfl
  · split
    · split
      · exact hl
      · rfl
    · split
      · exact hz
      · rfl

theorem production_applyZoneSet : production (applyZoneSet pl s) = production s := by
  unfold applyZoneSet; dsimp only; split <;> split <;> split <;> simp

theorem production_clearZone (z : Fin 4) : production (clearZone s z) = production s := by
  unfold clearZone; dsimp only; split <;> split <;> simp

theorem production_spliceForce : production (spliceForce p pl s).1 = production s := by
  unfold spliceForce; split
  · rfl
  · split
    · rfl
    · exact production_forceSplice _

theorem production_cutCancel : production (cutCancel p pl s).1 = production s := by
  unfold cutCancel; split
  · exact production_withdrawCut s
  · rfl
  · split <;> rfl

/-! ### Requests with a cascade, and the queue's own -/

theorem moves_lineStart (h : Moves v (inventory s)) : Moves v (inventory (lineStart p pl s).1) := by
  have hr : ∀ i, Moves v (inventory (recipeForRun i s)) := by
    intro i; unfold recipeForRun; split
    · exact h
    · exact moves_onFormer (s := s.onDose _) id id h
  unfold lineStart; split
  · exact h
  · split
    · dsimp only [okWith]
      exact moves_settle (moves_enterLine _ (hr _))
    · exact h

theorem moves_lineStop (h : Moves v (inventory s)) : Moves v (inventory (lineStop p pl s).1) := by
  have hs : Moves v (inventory (settle (stopNow s))) := moves_settle_production (production_stopNow s) h
  unfold lineStop; split
  · exact h
  · unfold stopLine; split
    case h_4 | h_5 => exact hs
    case h_6 | h_7 =>
      split
      · exact h
      · exact hs
    all_goals exact h

theorem production_resetZones : production (resetZones s) = production s :=
  production_foldl s (fun z u => by simp [changeTarget]) _

theorem inventory_lineResetState : inventory (lineResetState s) =
    { inventory s with
      slots := (inventory s).slots.map (fun sl => { sl with refs := 0 }), orders := [], active := false, joints := 0,
      records := 0, reports := 0, marks := 0, panel := false, bridge := false } := rfl

theorem moves_lineReset (h : Moves v (inventory s)) : Moves v (inventory (lineReset p pl s).1) := by
  unfold lineReset; split
  · have hc : Moves v (inventory (lineResetState s)) := by
      rw [inventory_lineResetState]; exact h.tail .cleared
    have hz : Moves v (inventory (resetZones (lineResetState s))) := moves_of_production production_resetZones hc
    exact moves_of_production (production_raise _ .lineResetDone (bytes2 (panelsDiscarded s))) hz
  · exact h

theorem moves_zoneSetRequest (h : Moves v (inventory s)) : Moves v (inventory (zoneSetRequest p pl s).1) := by
  unfold zoneSetRequest; split
  · exact h
  · exact moves_settle_production (production_applyZoneSet pl) h

theorem moves_clearLine (h : Moves v (inventory s)) : Moves v (inventory (clearLine s).1) := by
  unfold clearLine; split
  · dsimp only [followedBy]
    exact moves_enterLine .stopped h
  · exact h

theorem moves_faultClear (h : Moves v (inventory s)) : Moves v (inventory (faultClear p pl s).1) := by
  have hz : Moves v (inventory (zonesInOrder.foldl clearZone s)) :=
    moves_of_production (production_foldl s (fun z u => production_clearZone z) _) h
  unfold faultClear; split
  · exact h
  · dsimp only [okWith]
    exact moves_settle (moves_clearLine hz)

theorem moves_formerSet (h : Moves v (inventory s)) : Moves v (inventory (formerSet p pl s).1) := by
  unfold formerSet; dsimp only; split
  · exact h
  · split
    · exact h
    · split <;> exact h

theorem inventory_onFilter (sw : Switch) (f : Filter → Filter) (s : State) :
    inventory (onFilter sw f s) = inventory s := by cases sw <;> rfl

theorem moves_refilterSwitch (old : InputSettings) (sw : Switch) (h : Moves v (inventory s)) :
    Moves v (inventory (refilterSwitch old sw s)) := by
  rw [refilterSwitch, inventory_onFilter]; exact h

theorem production_giveEstop (b : Bool) : production (giveEstop b s).1 = production s := by
  unfold giveEstop; split <;> rfl

theorem moves_inputSet (h : Moves v (inventory s)) : Moves v (inventory (inputSet p pl s).1) := by
  unfold inputSet; dsimp only; split
  · exact h
  · split
    · exact h
    · exact moves_settle_production (production_giveEstop _)
        (moves_foldl (fun sw _ hu => moves_refilterSwitch _ sw hu) _ h)

theorem moves_orderQueue (h : Moves v (inventory s)) : Moves v (inventory (orderQueue p pl s).1) := by
  unfold orderQueue; split
  · exact h
  · split
    · exact h
    · next hfull =>
      split
      · exact h
      · next hvalid =>
        split
        · exact h
        · refine moves_settle_signals (h.tail (.joined
            (newOrder (freshId s.queue.orders 8 s.queue.nextId) pl) (Nat.lt_of_not_le hfull) rfl ?_ rfl ?_))
          · have h0 := (pl.getD 2 0).isLt
            have h1 := (pl.getD 3 0).isLt
            simp only [newOrder, u16, leNat]
            omega
          · exact not_not.mp hvalid

/-- The order an id finds, with those before and behind it. -/
theorem find_order_split {os : List Order} {id : Nat} {o : Order} (h : os.find? (fun x => x.id == id) = some o) :
    o.id = id ∧ ∃ before after, os = before ++ o :: after ∧ ∀ x ∈ before, x.id ≠ o.id := by
  obtain ⟨hid, before, after, hos, hb⟩ := List.find?_eq_some_iff_append.mp h
  have hid' : o.id = id := by simpa using hid
  exact ⟨hid', before, after, hos, fun x hx => by simpa [hid'] using hb x hx⟩

theorem eraseP_order {before after : List Order} {o : Order} (hb : ∀ x ∈ before, x.id ≠ o.id) :
    (before ++ o :: after).eraseP (fun x => x.id == o.id) = before ++ after := by
  rw [List.eraseP_append_right _ (by simpa using hb), List.eraseP_cons_of_pos (by simp)]

theorem inventory_removeOrder {before after : List Order} {o : Order} (ho : s.queue.orders = before ++ o :: after)
    (hb : ∀ x ∈ before, x.id ≠ o.id) :
    inventory (removeOrder o s) =
      { inventory s with orders := before ++ after, slots := unreferenced o.pattern (inventory s).slots } := by
  have he := eraseP_order (after := after) hb
  unfold removeOrder queuedFell
  rw [← ho] at he
  split <;> simp [inventory, raise, dropReference, onSlot, he, unreferenced]

theorem moves_orderCancel (h : Moves v (inventory s)) : Moves v (inventory (orderCancel p pl s).1) := by
  unfold orderCancel; split
  · exact h
  · next o ho =>
    obtain ⟨-, before, after, hos, hb⟩ := find_order_split ho
    split
    · exact h
    · split
      · split
        · exact h
        · split
          · refine h.tail (.flagged _ ?_)
            show (s.queue.orders.modifyHead fun o => { o with cancel := true }).map orderBody =
              s.queue.orders.map orderBody
            cases s.queue.orders <;> rfl
          · exact moves_settle_signals (moves_retire 1 h)
      · next hact =>
        refine moves_settle_signals (s := removeOrder o s) ?_
        rw [inventory_removeOrder hos hb]
        refine h.tail (.left before o after _ hos ?_)
        intro ha
        refine ⟨ha, ?_⟩
        rintro rfl
        have hq : s.queue.active = true := ha
        simp [isActiveOrder, hq, hos] at hact

theorem moves_reportTake (h : Moves v (inventory s)) : Moves v (inventory (reportTake p pl s).1) := by
  unfold reportTake; split
  · exact h
  · next r rest hr =>
    refine moves_settle (moves_makeWaitingReport (h.tail (.reportTaken rest.length ?_)))
    simp [inventory, hr]

theorem moves_rollStatus (h : Moves v (inventory s)) : Moves v (inventory (rollStatus p pl s).1) := by
  unfold rollStatus; split
  · exact h
  · split
    · exact h
    · exact moves_settle_production (by simp) h

theorem moves_spliceArm (h : Moves v (inventory s)) : Moves v (inventory (spliceArm p pl s).1) := by
  unfold spliceArm; split
  · exact h
  · split
    · exact h
    · exact moves_settle_signals h

theorem moves_spliceCancel (h : Moves v (inventory s)) : Moves v (inventory (spliceCancel p pl s).1) := by
  unfold spliceCancel; split
  case h_1 | h_2 | h_3 => exact moves_settle_production (production_withdrawSplice s none) h
  case h_4 => exact h
  case h_5 => split <;> exact h

theorem moves_cutRequest (h : Moves v (inventory s)) : Moves v (inventory (cutRequest p pl s).1) := by
  have hn : Moves v (inventory (cutNextEnd s).1) := by
    unfold cutNextEnd; split
    · exact h
    · exact moves_of_production (production_chooseTarget _) h
  have hflag : Moves v (inventory (flagCutThrough (panelAtCut s) s)) := by
    unfold flagCutThrough; split
    · exact h
    · rwa [inventory_onPanel]
  have hf : Moves v (inventory (cutForce s).1) := by
    unfold cutForce; split
    · exact h
    · exact moves_of_production (by rfl) hflag
  unfold cutRequest; split
  · exact h
  · split
    · exact hn
    · exact hf

/-! ### Counts, switches and timers -/

theorem moves_shiftCells (h : Moves v (inventory s)) : Moves v (inventory (shiftCells s)) := by
  have hj : ∀ c, inventory (judgeCell c s) = inventory s := by
    intro c; unfold judgeCell; split
    · unfold offerCell; split
      · rfl
      · exact inventory_onPanel _ _ s
    · rfl
  unfold shiftCells; split
  · exact moves_of_production (s := judgeCell _ s) rfl (by rwa [hj])
  · exact h

theorem moves_outfeedReverse (h : Moves v (inventory s)) : Moves v (inventory (outfeedReverse s).1) := by
  have he : inventory (outfeedReverse s).1 = inventory s := by simp [inventory, outfeedReverse, marksBack]
  rwa [he]

theorem moves_portLost (h : Moves v (inventory s)) : Moves v (inventory (portLost p s).1) := by
  cases p
  · exact moves_of_production (production_stopNow s) h
  · exact h
  · exact moves_of_production (production_withdrawCut s) h

theorem production_beginSearch (s : State) : production (beginSearch s) = production s := by
  unfold beginSearch; split <;> rfl

theorem moves_edgeEffect (sw : Switch) (b : Bool) (h : Moves v (inventory s)) :
    Moves v (inventory (edgeEffect sw b s).1) := by
  cases sw <;> dsimp only [edgeEffect] <;> split
  case bladeHome.isTrue | bladeHome.isFalse => exact h
  case hoodUp.isFalse | hoodDown.isTrue => exact moves_of_production (production_deriveHood s) h
  case jointDetector.isTrue => exact moves_addJoint _ _ (moves_of_production (production_offerCapture s _) h)
  all_goals exact h

theorem moves_takeLevel (sw : Switch) (h : Moves v (inventory s)) : Moves v (inventory (takeLevel sw s)) := by
  unfold takeLevel; dsimp only; split
  · rwa [inventory_onFilter]
  · exact moves_settle (moves_edgeEffect sw _ (by rwa [inventory_onFilter]))

end

/-- The commands that load the pattern slots, and the device reset. -/
def slotCommand : Instr → Bool
  | .deviceReset | .patternBegin _ | .patternSteps _ | .patternEnd _ | .patternDelete _ => true
  | _ => false

/-- Every other command, with all that follows from it, is a list of changes of the inventory. -/
theorem moves_exec {c : Instr} {s t : State} (hc : slotCommand c = false) (h : exec c s = .next t) :
    Moves (inventory s) (inventory t) := by
  have h0 : Moves (inventory s) (inventory s) := .refl
  have same : ∀ {block : Port → List Byte → State → State × Answer},
      (∀ p pl {u : State}, production (block p pl u).1 = production u) →
      ∀ p pl {u : State}, Moves (inventory s) (inventory u) → Moves (inventory s) (inventory (block p pl u).1) :=
    fun hb p pl _ hu => moves_of_production (hb p pl) hu
  cases c
  case deviceReset | patternBegin | patternSteps | patternEnd | patternDelete => cases hc
  case incompleteFrame p bytes =>
    simp only [exec, execIncompleteFrame] at h
    split at h <;> cases h
    exact h0
  case unknownKindFrame kind f =>
    simp only [exec, execUnknownKindFrame] at h
    split at h <;> cases h
    split <;> exact h0
  all_goals obtain rfl := Host.Outcome.next.inj h
  case emptyTransaction p => exact h0
  case nop f => exact moves_serve (fun _ _ _ h => h) h0
  case lineView | zoneView | formerView | queueView | panelView | mapView | spliceView | portView =>
    exact moves_serve (same production_statusRead) h0
  case eventTake f => exact moves_serve (same production_eventTake) h0
  case routeSet f => exact moves_serve (same production_routeSet) h0
  case floorSet f => exact moves_serve (same production_floorSet) h0
  case presenceSet f => exact moves_serve (same production_presenceSet) h0
  case lineStart f => exact moves_serve moves_lineStart h0
  case lineStopImmediate | lineStopEndOfPanel => exact moves_serve moves_lineStop h0
  case lineReset f => exact moves_serve moves_lineReset h0
  case speedSet f => exact moves_serve (block := speedSet) (fun _ _ _ h => h) h0
  case recipeSet f => exact moves_serve (same production_recipeSet) h0
  case zoneSet | zoneDisable | zoneArm | zoneEnable => exact moves_serve moves_zoneSetRequest h0
  case monitorSetZone | monitorSetLine => exact moves_serve (same production_monitorSet) h0
  case faultClear f => exact moves_serve moves_faultClear h0
  case formerSet f => exact moves_serve moves_formerSet h0
  case tunnelSet f => exact moves_serve (same production_tunnelSet) h0
  case motionSet f => exact moves_serve (same production_motionSet) h0
  case inputSet f => exact moves_serve moves_inputSet h0
  case rollGeometrySet f => exact moves_serve (same production_rollGeometrySet) h0
  case orderQueue f => exact moves_serve moves_orderQueue h0
  case orderCancel f => exact moves_serve moves_orderCancel h0
  case reportTake f => exact moves_serve moves_reportTake h0
  case queueLowSet f =>
    refine moves_serve (fun _ _ _ h => ?_) h0
    unfold queueLowSet; split <;> exact h
  case rollStatus f => exact moves_serve moves_rollStatus h0
  case spliceArm f => exact moves_serve moves_spliceArm h0
  case spliceForce f => exact moves_serve (same production_spliceForce) h0
  case spliceCancel f => exact moves_serve moves_spliceCancel h0
  case cutRequestNextEnd | cutRequestForce => exact moves_serve moves_cutRequest h0
  case cutCancel f => exact moves_serve (same production_cutCancel) h0
  case presenceExpiry p => exact moves_ite (moves_settle (moves_portLost p h0)) h0
  case infeedCount a b =>
    dsimp only
    split
    · exact h0
    · exact moves_settle_signals h0
  case outfeedCount a b =>
    dsimp only
    split
    · exact h0
    · exact moves_settle (moves_of_production (production_cutCompare _) (moves_shiftCells h0))
    · exact moves_settle (moves_outfeedReverse h0)
  case switchPinChange sw high =>
    split
    · exact h0
    · dsimp only
      split
      · exact moves_takeLevel sw h0
      · rw [inventory_onFilter]; exact h0
  case filterExpiry sw => exact moves_ite (moves_takeLevel sw h0) h0
  case estopChange high => exact moves_settle_production (production_giveEstop _) h0
  case feedTimeout | bladeJam | breakTimerExpiry | hoodTimerExpiry => exact moves_ite (moves_settle_signals h0) h0
  case tuckEnd | pressEnd => exact moves_ite (moves_settle_signals (moves_former_next rfl rfl h0)) h0
  case hoodDelayExpiry => exact moves_ite (moves_settle_production (production_commandHood _ _) h0) h0
  case probeSample z n => exact moves_settle_production (by simp) h0
  case regulationPeriod z => exact moves_settle_production (by simp) h0
  case valveWindowStart | valveClose | splicePulseEnd => exact h0
  case doseSample => exact moves_of_production (production_doseSample _) h0
  case speedUpdate =>
    exact moves_of_production (production_speedSteps _) (moves_settle_production (production_speedUpdate s) h0)
  case probeCheckTimer =>
    dsimp only
    split
    · exact h0
    · split
      · exact moves_of_production (production_beginSearch _) h0
      · exact h0
  case cutPulseEnd => exact moves_ite h0 h0

end Sys2Proof.Machine
end

section
/-! SUPPORT. The laws of the pattern store, the run queue and the capacities, as laws of the inventory: each change of
the inventory keeps them, so that every step does (R35, R37, R42 to R53, R62, R86 to R96). -/

namespace Sys2Proof.Machine

open Sys2Proof.Safety

/-! ### Reference counts -/

/-- A slot of the inventory. -/
def Inventory.slot (v : Inventory) (i : Fin 16) : Slot := v.slots.getD i.val Slot.cleared

/-- The orders of the inventory that name a slot. -/
def Inventory.named (v : Inventory) (i : Fin 16) : Nat := (v.orders.filter fun o => decide (o.pattern = i)).length

/-- `References`, of the inventory. -/
def Inventory.Referenced (v : Inventory) : Prop :=
  v.slots.length = 16 ∧ (∀ i, (v.slot i).refs = v.named i) ∧ (∀ i, 0 < (v.slot i).refs → (v.slot i).state = .valid) ∧
    ∀ i, v.load = some i → (v.slot i).state = .loading

theorem references_iff (s : State) : References s ↔ (inventory s).Referenced := Iff.rfl

/-- A slot after a change of one slot. -/
theorem slot_modify {slots : List Slot} (h : slots.length = 16) (f : Slot → Slot) (i j : Fin 16) :
    (slots.modify i.val f).getD j.val Slot.cleared =
      if i = j then f (slots.getD j.val Slot.cleared) else slots.getD j.val Slot.cleared := by
  have hj : j.val < slots.length := by rw [h]; exact j.isLt
  simp [List.getD_eq_getElem?_getD, List.getElem?_modify, List.getElem?_eq_getElem hj, Fin.ext_iff]

theorem slot_set {slots : List Slot} (h : slots.length = 16) (sl : Slot) (i j : Fin 16) :
    (slots.set i.val sl).getD j.val Slot.cleared = if i = j then sl else slots.getD j.val Slot.cleared := by
  have hj : j.val < slots.length := by rw [h]; exact j.isLt
  simp only [List.getD_eq_getElem?_getD, List.getElem?_set, Fin.ext_iff]
  split
  · next hij => simp [hij, hj]
  · rfl

/-- A change of the entry at an index sets it to what it makes of the entry there. -/
theorem modify_eq_set_getD {α : Type} (l : List α) (i : Nat) (f : α → α) (d : α) :
    l.modify i f = l.set i (f (l.getD i d)) := by
  by_cases hi : i < l.length
  · rw [modify_eq_set l i f l[i] (List.getElem?_eq_getElem hi), List.getD_eq_getElem l d hi]
  · rw [List.set_eq_of_length_le (Nat.le_of_not_lt hi), List.modify_eq_self (Nat.le_of_not_lt hi)]

theorem named_body {os ps : List Order} (h : os.map orderBody = ps.map orderBody) (i : Fin 16) :
    (os.filter fun o => decide (o.pattern = i)).length = (ps.filter fun o => decide (o.pattern = i)).length := by
  have hb : ∀ l : List Order, (l.filter fun o => decide (o.pattern = i)).length =
      ((l.map orderBody).filter fun o => decide (o.pattern = i)).length := by
    intro l
    rw [List.filter_map, List.length_map]
    rfl
  rw [hb os, hb ps, h]

/-- The reference counts stay right when a slot's count changes with the orders that name it. -/
theorem referenced_change {v : Inventory} (h : v.Referenced) (i : Fin 16) (g : Nat → Nat) (os : List Order)
    (hn : ∀ j, (os.filter fun o => decide (o.pattern = j)).length = if i = j then g (v.named j) else v.named j)
    (hs : 0 < g (v.named i) → (v.slot i).state = .valid) :
    ∀ a n, ({ v with
      orders := os, active := a, nextId := n,
      slots := v.slots.modify i.val fun sl => { sl with refs := g sl.refs } } : Inventory).Referenced := by
  obtain ⟨hl, hr, hv, hld⟩ := h
  intro a n
  refine ⟨by simpa using hl, fun j => ?_, fun j hj => ?_, fun j hj => ?_⟩
  · simp only [Inventory.slot, Inventory.named, slot_modify hl, hn]
    split
    · exact congrArg g (hr j)
    · exact hr j
  · simp only [Inventory.slot, slot_modify hl] at hj ⊢
    split
    · next hij =>
      subst hij
      rw [if_pos rfl] at hj
      exact hs (hr i ▸ hj)
    · next hij => rw [if_neg hij] at hj; exact hv j hj
  · simp only [Inventory.slot, slot_modify hl]
    split
    · exact hld j hj
    · exact hld j hj

theorem Move.referenced {v w : Inventory} (m : Move v w) (h : v.Referenced) : w.Referenced := by
  have ⟨hl, hr, hv, hld⟩ := h
  cases m with
  | counted o os ho hc =>
    refine ⟨hl, fun i => (hr i).trans ?_, hv, hld⟩
    simp only [Inventory.named, ho, List.filter_cons]
    split <;> rfl
  | flagged os ho => exact ⟨hl, fun i => (hr i).trans (named_body ho i).symm, hv, hld⟩
  | left before o after b ho hb =>
    have hn : ∀ j, v.named j = ((before ++ after).filter fun o => decide (o.pattern = j)).length +
        if o.pattern = j then 1 else 0 := by
      intro j
      rw [Inventory.named, ho, List.filter_append, List.filter_cons, List.filter_append]
      by_cases hj : o.pattern = j <;> simp [hj] ; omega
    refine referenced_change h o.pattern (· - 1) _ (fun j => ?_) (fun hp => hv _ ?_) b v.nextId
    · rw [hn j]; split <;> simp
    · rw [hr]; omega
  | joined o hlen hid hc hd hs =>
    refine referenced_change h o.pattern (· + 1) _ (fun j => ?_) (fun _ => hs) v.active _
    rw [Inventory.named, List.filter_append, List.length_append, List.filter_cons, List.filter_nil]
    by_cases hj : o.pattern = j <;> simp [hj]
  | cleared =>
    have hm : ∀ i : Fin 16, (v.slots.map fun sl => { sl with refs := 0 }).getD i.val Slot.cleared =
        { v.slot i with refs := 0 } := by
      intro i
      have hi : i.val < v.slots.length := by rw [hl]; exact i.isLt
      simp [Inventory.slot, List.getD_eq_getElem?_getD, List.getElem?_eq_getElem hi]
    refine ⟨by simpa using hl, fun i => ?_, fun i hi => ?_, fun i hi => ?_⟩
    · rw [Inventory.slot, hm]; rfl
    · rw [Inventory.slot, hm] at hi; exact absurd hi (Nat.lt_irrefl 0)
    · rw [Inventory.slot, hm]; exact hld i hi
  | _ => exact h

theorem Moves.referenced {v w : Inventory} (m : Moves v w) (h : v.Referenced) : w.Referenced := by
  induction m with
  | refl => exact h
  | tail _ hm ih => exact hm.referenced ih

/-! ### What a slot holds -/

/-- A change of the inventory leaves a slot's header and steps. -/
theorem Move.contents {v w : Inventory} (m : Move v w) : w.slots.map slotContents = v.slots.map slotContents := by
  have hmod : ∀ (i : Nat) (g : Nat → Nat), (v.slots.modify i fun sl => { sl with refs := g sl.refs }).map slotContents =
      v.slots.map slotContents := by
    intro i g
    apply List.ext_getElem?
    intro n
    rw [List.getElem?_map, List.getElem?_modify, List.getElem?_map]
    cases v.slots[n]? with
    | none => rfl
    | some sl => by_cases hn : i = n <;> simp [hn, slotContents]
  cases m with
  | left before o after b ho hb => exact hmod _ (· - 1)
  | joined o => exact hmod _ (· + 1)
  | cleared => exact (List.map_map ..)
  | _ => rfl

theorem Moves.contents {v w : Inventory} (m : Moves v w) : w.slots.map slotContents = v.slots.map slotContents := by
  induction m with
  | refl => rfl
  | tail _ hm ih => exact hm.contents.trans ih

/-! ### The run queue -/

/-- `Orders`, of the inventory. -/
def Inventory.Ordered (v : Inventory) : Prop :=
  (v.orders.map Order.id).Nodup ∧ (∀ o ∈ v.orders, 1 ≤ o.id ∧ o.id ≤ 255) ∧ (1 ≤ v.nextId ∧ v.nextId ≤ 255) ∧
    (v.active = true → v.orders ≠ []) ∧ ∀ o ∈ v.orders, o.count ≤ 65535 ∧ (o.count = 0 ∨ o.done < o.count)

theorem orders_iff (s : State) : Orders s ↔ (inventory s).Ordered := Iff.rfl

theorem idAfter_range {n : Nat} (h : 1 ≤ n ∧ n ≤ 255) : 1 ≤ idAfter n ∧ idAfter n ≤ 255 := by
  unfold idAfter; split <;> omega

theorem idCandidate_range {n : Nat} (h : 1 ≤ n ∧ n ≤ 255) (k : Nat) : 1 ≤ idCandidate n k ∧ idCandidate n k ≤ 255 := by
  induction k with
  | zero => exact h
  | succ k ih => rw [idCandidate]; split <;> omega

theorem idCandidate_succ {n : Nat} (h : 1 ≤ n ∧ n ≤ 255) (k : Nat) :
    idCandidate n (k + 1) = idCandidate (idAfter n) k := by
  have hi : idAfter n = if n = 255 then 1 else n + 1 := by unfold idAfter; split <;> split <;> omega
  induction k with
  | zero => exact hi.symm
  | succ k ih => rw [idCandidate, ih, ← idCandidate]

/-- The candidates differ until they have gone round. -/
theorem idCandidate_eq {n : Nat} (h : 1 ≤ n ∧ n ≤ 255) {k : Nat} (hk : k < 255) :
    idCandidate n k = if n + k ≤ 255 then n + k else n + k - 255 := by
  induction k with
  | zero => rw [idCandidate, if_pos (by omega)]; rfl
  | succ k ih =>
    rw [idCandidate, ih (by omega)]
    split <;> split <;> split <;> omega

/-- The id found is the first candidate that no order holds, or the last one of all. -/
theorem freshId_first (os : List Order) (fuel n : Nat) (h : 1 ≤ n ∧ n ≤ 255) :
    ∃ k ≤ fuel, freshId os fuel n = idCandidate n k ∧ (∀ k' < k, ∃ o ∈ os, o.id = idCandidate n k') ∧
      (k < fuel → ∀ o ∈ os, o.id ≠ idCandidate n k) := by
  induction fuel generalizing n with
  | zero => exact ⟨0, Nat.le_refl _, rfl, fun k' hk => absurd hk (Nat.not_lt_zero _), fun hk => absurd hk (Nat.lt_irrefl _)⟩
  | succ fuel ih =>
    rw [freshId]
    split
    · next hused =>
      obtain ⟨k, hk, hid, hbefore, hfree⟩ := ih _ (idAfter_range h)
      refine ⟨k + 1, Nat.succ_le_succ hk, hid.trans (idCandidate_succ h k).symm, fun k' hk' => ?_, fun hk' => ?_⟩
      · cases k' with
        | zero =>
          obtain ⟨o, ho, hn⟩ := List.any_eq_true.mp hused
          exact ⟨o, ho, of_decide_eq_true hn⟩
        | succ k' => rw [idCandidate_succ h]; exact hbefore k' (Nat.lt_of_succ_lt_succ hk')
      · rw [idCandidate_succ h]; exact hfree (Nat.lt_of_succ_lt_succ hk')
    · next hfree =>
      refine ⟨0, Nat.zero_le _, rfl, fun k' hk => absurd hk (Nat.not_lt_zero _), fun _ o ho he => hfree ?_⟩
      exact List.any_eq_true.mpr ⟨o, ho, decide_eq_true he⟩

/-- Fewer than eight orders cannot hold the first eight candidates. -/
theorem freshId_free {os : List Order} {n : Nat} (hlen : os.length < 8) (h : 1 ≤ n ∧ n ≤ 255) :
    ∃ k < 8, freshId os 8 n = idCandidate n k ∧ (∀ k' < k, ∃ o ∈ os, o.id = idCandidate n k') ∧
      ∀ o ∈ os, o.id ≠ idCandidate n k := by
  obtain ⟨k, hk, hid, hbefore, hfree⟩ := freshId_first os 8 n h
  have hk8 : k < 8 := by
    by_contra hn
    obtain rfl : k = 8 := by omega
    have hsub : (Finset.range 8).image (idCandidate n) ⊆ (os.map Order.id).toFinset := by
      intro x hx
      obtain ⟨k', hk', rfl⟩ := Finset.mem_image.mp hx
      obtain ⟨o, ho, he⟩ := hbefore k' (Finset.mem_range.mp hk')
      exact List.mem_toFinset.mpr (List.mem_map.mpr ⟨o, ho, he⟩)
    have hinj : Set.InjOn (idCandidate n) (Finset.range 8) := by
      intro a ha b hb hab
      have ha8 := Finset.mem_range.mp ha
      have hb8 := Finset.mem_range.mp hb
      rw [idCandidate_eq h (by omega), idCandidate_eq h (by omega)] at hab
      split at hab <;> split at hab <;> omega
    have hle := (Finset.card_le_card hsub).trans (List.toFinset_card_le _)
    rw [Finset.card_image_of_injOn hinj, Finset.card_range, List.length_map] at hle
    omega
  exact ⟨k, hk8, hid, hbefore, hfree hk8⟩

theorem ids_body {os ps : List Order} (h : os.map orderBody = ps.map orderBody) : os.map Order.id = ps.map Order.id := by
  have hb : ∀ l : List Order, l.map Order.id = (l.map orderBody).map Order.id := fun l => by
    rw [List.map_map]; rfl
  rw [hb os, hb ps, h]

/-- An order with other flags has an order of the same body in the other list. -/
theorem mem_body {os ps : List Order} (h : os.map orderBody = ps.map orderBody) {o : Order} (ho : o ∈ os) :
    ∃ p ∈ ps, p.id = o.id ∧ p.count = o.count ∧ p.done = o.done := by
  obtain ⟨p, hp, he⟩ := List.mem_map.mp (h ▸ List.mem_map.mpr ⟨o, ho, rfl⟩)
  rw [orderBody, orderBody, Order.mk.injEq] at he
  obtain ⟨hid, -, -, hcount, hdone, -⟩ := he
  exact ⟨p, hp, hid, hcount, hdone⟩

theorem Move.ordered {v w : Inventory} (m : Move v w) (h : v.Ordered) : w.Ordered := by
  have ⟨hnd, hid, hnext, hact, hcount⟩ := h
  cases m with
  | activated ho => exact ⟨hnd, hid, hnext, fun _ => ho, hcount⟩
  | counted o os ho hc =>
    have ho1 : o ∈ v.orders := ho ▸ List.mem_cons_self
    have hos : ∀ x ∈ os, x ∈ v.orders := fun x hx => ho ▸ List.mem_cons_of_mem _ hx
    refine ⟨by rw [ho] at hnd; exact hnd, ?_, hnext, fun _ => List.cons_ne_nil _ _, ?_⟩
    · rintro x (_ | ⟨_, hx⟩)
      · exact hid o ho1
      · exact hid x (hos x hx)
    · rintro x (_ | ⟨_, hx⟩)
      · refine ⟨(hcount o ho1).1, ?_⟩
        show o.count = 0 ∨ bump16 o.done < o.count
        omega
      · exact hcount x (hos x hx)
  | flagged os ho =>
    refine ⟨by rwa [ids_body ho], fun x hx => ?_, hnext, fun ha he => hact ha ?_, fun x hx => ?_⟩
    · obtain ⟨p, hp, hpid, -, -⟩ := mem_body ho hx
      exact hpid ▸ hid p hp
    · have he' : os = [] := he
      rw [he'] at ho
      exact List.map_eq_nil_iff.mp ho.symm
    · obtain ⟨p, hp, -, hpc, hpd⟩ := mem_body ho hx
      exact hpc ▸ hpd ▸ hcount p hp
  | left before o after b ho hb =>
    have hsub : (before ++ after).Sublist v.orders := by
      rw [ho]; exact (List.Sublist.refl before).append (List.sublist_cons_self o after)
    refine ⟨hnd.sublist (hsub.map _), fun x hx => hid x (hsub.subset hx), hnext, fun ha he => (hb ha).2 ?_,
      fun x hx => hcount x (hsub.subset hx)⟩
    exact (List.append_eq_nil_iff.mp he).1
  | joined o hlen hfresh hc hd hs =>
    obtain ⟨k, -, hk, -, hfree⟩ := freshId_free hlen hnext
    have hok : o.id = idCandidate v.nextId k := hfresh.trans hk
    have hr := idCandidate_range hnext k
    rw [← hok] at hr
    refine ⟨?_, ?_, idAfter_range hr, fun _ => by simp, ?_⟩
    · show ((v.orders ++ [o]).map Order.id).Nodup
      rw [List.map_append, List.nodup_append]
      refine ⟨hnd, List.nodup_singleton _, ?_⟩
      rintro a ha b hb rfl
      obtain ⟨x, hx, rfl⟩ := List.mem_map.mp ha
      exact hfree x hx ((List.mem_singleton.mp hb).trans hok)
    · intro x hx
      rcases List.mem_append.mp hx with hx | hx
      · exact hid x hx
      · exact List.mem_singleton.mp hx ▸ hr
    · intro x hx
      rcases List.mem_append.mp hx with hx | hx
      · exact hcount x hx
      · rw [List.mem_singleton.mp hx]; omega
  | cleared => exact ⟨List.nodup_nil, by simp, hnext, fun ha => absurd ha Bool.false_ne_true, by simp⟩
  | _ => exact h

theorem Moves.ordered {v w : Inventory} (m : Moves v w) (h : v.Ordered) : w.Ordered := by
  induction m with
  | refl => exact h
  | tail _ hm ih => exact hm.ordered ih

/-! ### Capacities -/

/-- `Capacity`, of the inventory. -/
def Inventory.Fits (v : Inventory) : Prop :=
  v.orders.length ≤ 8 ∧ v.joints ≤ 4 ∧ v.records ≤ 32 ∧ v.reports ≤ 16 ∧ v.places ≤ 64 ∧
    ¬(v.panel = true ∧ v.bridge = true)

theorem capacity_iff (s : State) : Capacity s ↔ (inventory s).Fits := Iff.rfl

/-- A place fewer is spoken for when work rests. -/
theorem places_rested {v : Inventory} {p b : Bool} (hp : p = true → v.panel = true) (hb : b = true → v.bridge = true) :
    ({ v with panel := p, bridge := b } : Inventory).places ≤ v.places := by
  have hw : (p || b) = true → (v.panel || v.bridge) = true := by
    simp only [Bool.or_eq_true]; exact Or.imp hp hb
  unfold Inventory.places
  dsimp only
  split
  · next h => rw [if_pos (hw h)]
  · omega

theorem Move.fits {v w : Inventory} (m : Move v w) (h : v.Fits) : w.Fits := by
  have ⟨hord, hj, hrec, hrep, hpl, hwork⟩ := h
  cases m with
  | rested p b hp hb =>
    exact ⟨hord, hj, hrec, hrep, (places_rested hp hb).trans hpl, fun hn => hwork ⟨hp hn.1, hb hn.2⟩⟩
  | counted o os ho hc => exact ⟨by rw [ho] at hord; exact hord, hj, hrec, hrep, hpl, hwork⟩
  | flagged os ho =>
    have hl : os.length = v.orders.length := by simpa using congrArg List.length ho
    exact ⟨hl ▸ hord, hj, hrec, hrep, hpl, hwork⟩
  | left before o after b ho hb =>
    refine ⟨?_, hj, hrec, hrep, hpl, hwork⟩
    simp only [ho, List.length_append, List.length_cons] at hord ⊢
    omega
  | joined o hlen => exact ⟨by simpa using hlen, hj, hrec, hrep, hpl, hwork⟩
  | cleared => exact ⟨Nat.zero_le _, Nat.zero_le _, Nat.zero_le _, Nat.zero_le _, Nat.zero_le _, by simp⟩
  | jointCame hlt => exact ⟨hord, hlt, hrec, hrep, hpl, hwork⟩
  | jointsWent n hn => exact ⟨hord, hn.trans hj, hrec, hrep, hpl, hwork⟩
  | marked hlt =>
    refine ⟨hord, hj, hrec, hrep, ?_, hwork⟩
    unfold Inventory.places at hlt ⊢
    dsimp only
    omega
  | markWent n hn =>
    refine ⟨hord, hj, hrec, hrep, ?_, hwork⟩
    unfold Inventory.places at hpl ⊢
    dsimp only
    omega
  | reported n hn hlt => exact ⟨hord, hj, hn.trans hrec, hlt, hpl, hwork⟩
  | reportTaken n hn => exact ⟨hord, hj, hrec, hn.trans hrep, hpl, hwork⟩
  | panelBegun hw hr hm =>
    refine ⟨hord, hj, hr, hrep, ?_, by simp⟩
    simp [Inventory.places]
    omega
  | bridgeBegun hw hm =>
    refine ⟨hord, hj, hrec, hrep, ?_, by simp [hw.1]⟩
    simp [Inventory.places]
    omega
  | panelEnded hp =>
    have hb : v.bridge = false := by simpa [hp] using hwork
    refine ⟨hord, hj, hrec, hrep, ?_, by simp⟩
    simp only [Inventory.places, hp, hb, Bool.true_or, if_true, Bool.or_self, Bool.false_eq_true, if_false] at hpl ⊢
    exact hpl
  | bridgeEnded hb =>
    have hp : v.panel = false := by cases hv : v.panel <;> simp_all
    refine ⟨hord, hj, hrec, hrep, ?_, by simp⟩
    simp only [Inventory.places, hp, hb, Bool.or_true, if_true, Bool.or_self, Bool.false_eq_true, if_false] at hpl ⊢
    exact hpl
  | _ => exact h

theorem Moves.fits {v w : Inventory} (m : Moves v w) (h : v.Fits) : w.Fits := by
  induction m with
  | refl => exact h
  | tail _ hm ih => exact hm.fits ih

/-! ### The commands of the pattern store -/

/-- What a command of the pattern store makes of the inventory: nothing, or another content of a slot that no order
names, the load context staying on a slot that is LOADING (R37 to R42). -/
inductive Load (v : Inventory) : Inventory → Prop
  | same : Load v v
  | put (k : Fin 16) (sl : Slot) (load : Option (Fin 16)) (h0 : (v.slot k).refs = 0) (hr : sl.refs = 0)
      (hl : ∀ j, load = some j → k = j ∧ sl.state = .loading ∨ k ≠ j ∧ v.load = some j) :
      Load v { v with slots := v.slots.set k.val sl, load := load }

theorem Load.referenced {v w : Inventory} (m : Load v w) (h : v.Referenced) : w.Referenced := by
  cases m with
  | same => exact h
  | put k sl load h0 hr0 hload =>
    obtain ⟨hl, hr, hv, hld⟩ := h
    refine ⟨by simpa using hl, fun j => ?_, fun j hj => ?_, fun j hj => ?_⟩
    · simp only [Inventory.slot, slot_set hl]
      split
      · next hk => subst hk; rw [hr0, ← h0]; exact hr k
      · exact hr j
    · simp only [Inventory.slot, slot_set hl] at hj ⊢
      split
      · next hk => rw [if_pos hk, hr0] at hj; exact absurd hj (Nat.lt_irrefl 0)
      · next hk => rw [if_neg hk] at hj; exact hv j hj
    · simp only [Inventory.slot, slot_set hl]
      rcases hload j hj with ⟨hk, hs⟩ | ⟨hk, hs⟩
      · rw [if_pos hk]; exact hs
      · rw [if_neg hk]; exact hld j hs

/-- The pattern store leaves a slot that an order names. -/
theorem Load.slot_kept {v w : Inventory} (m : Load v w) {i : Nat} {sl sl' : Slot} (hi : v.slots[i]? = some sl)
    (hpos : 0 < sl.refs) (hi' : w.slots[i]? = some sl') : sl' = sl := by
  cases m with
  | same => exact Option.some.inj (hi'.symm.trans hi)
  | put k new load h0 hr0 hload =>
    have hk : k.val ≠ i := by
      rintro rfl
      rw [Inventory.slot, List.getD_eq_getElem?_getD, hi, Option.getD_some] at h0
      omega
    have hw : (v.slots.set k.val new)[i]? = some sl' := hi'
    rw [List.getElem?_set_ne hk] at hw
    exact Option.some.inj (hw.symm.trans hi)

/-- A slot that is not VALID is referenced by no order. -/
theorem Inventory.Referenced.refs_zero {v : Inventory} (h : v.Referenced) {i : Fin 16} (hs : (v.slot i).state ≠ .valid) :
    (v.slot i).refs = 0 := by
  obtain ⟨-, -, hv, -⟩ := h
  exact Nat.eq_zero_of_not_pos fun hp => hs (hv i hp)

section
variable {s : State} (p : Port) (pl : List Byte)

/-- A slot that no order names takes another content, and the load context with it. -/
theorem load_onSlot (k : Fin 16) (f : Slot → Slot) (load : Option (Fin 16)) (h0 : (slotAt s k).refs = 0)
    (hr : (f (slotAt s k)).refs = 0)
    (hl : ∀ j, load = some j → k = j ∧ (f (slotAt s k)).state = .loading ∨ k ≠ j ∧ s.store.load = some j) :
    Load (inventory s) (inventory ((onSlot k f s).onStore fun st => { st with load := load })) := by
  have h := Load.put (v := inventory s) k (f (slotAt s k)) load h0 hr hl
  rw [slotAt, ← show s.store.slots = (inventory s).slots from rfl, ← modify_eq_set_getD] at h
  exact h

/-- The slot of the load context is LOADING, so that no order names it. -/
theorem loadSlot_free {i : Fin 16} (h : References s) (hl : s.store.load = some i) :
    (slotAt s i).state = .loading ∧ (slotAt s i).refs = 0 := by
  obtain ⟨-, -, hv, hld⟩ := h
  have hs := hld i hl
  refine ⟨hs, Nat.eq_zero_of_not_pos fun hp => ?_⟩
  rw [hv i hp] at hs
  cases hs

theorem load_patternBegin : Load (inventory s) (inventory (patternBegin p pl s).1) := by
  unfold patternBegin
  dsimp only
  split
  · exact .same
  · split
    · exact .same
    · split
      · exact .same
      · next hrefs =>
        have h0 := Nat.eq_zero_of_not_pos hrefs
        exact load_onSlot _ _ _ h0 h0 fun j hj => Or.inl ⟨Option.some.inj hj, rfl⟩

theorem load_patternSteps (h : References s) : Load (inventory s) (inventory (patternSteps p pl s).1) := by
  unfold patternSteps
  split
  · exact .same
  · next i hi =>
    obtain ⟨hs, h0⟩ := loadSlot_free h hi
    dsimp only
    split
    · exact .same
    · exact load_onSlot i _ s.store.load h0 h0 fun j hj => Or.inl ⟨Option.some.inj (hi.symm.trans hj), hs⟩

theorem load_patternEnd (h : References s) : Load (inventory s) (inventory (patternEnd p pl s).1) := by
  unfold patternEnd
  split
  · exact .same
  · next i hi =>
    obtain ⟨-, h0⟩ := loadSlot_free h hi
    dsimp only
    split
    · exact .same
    · exact load_onSlot i _ none h0 h0 fun j hj => by cases hj

theorem load_patternDelete (h : References s) : Load (inventory s) (inventory (patternDelete p pl s).1) := by
  unfold patternDelete
  dsimp only
  split
  · exact .same
  · split
    · exact .same
    · next hs =>
      split
      · exact .same
      · next hrefs =>
        refine load_onSlot _ (fun _ => Slot.cleared) s.store.load (Nat.eq_zero_of_not_pos hrefs) rfl
          fun j hj => Or.inr ⟨?_, hj⟩
        rintro rfl
        rw [(loadSlot_free h hj).1] at hs
        cases hs
    · next hs =>
      have h0 : (slotAt s (fin16 (u8 pl 0))).refs = 0 :=
        Inventory.Referenced.refs_zero (v := inventory s) h (fun hv => by cases hs.symm.trans hv)
      exact load_onSlot _ _ none h0 h0 fun j hj => by cases hj

end

/-- Serving a request is what its block does. -/
theorem load_serve {kind : Byte} {auth : Option Port} {lengthOk : Nat → Bool}
    {block : Port → List Byte → State → State × Answer} {f : Frame} {s : State}
    (hb : ∀ p pl {u : State}, inventory u = inventory s → Load (inventory u) (inventory (block p pl u).1)) :
    Load (inventory s) (inventory (serve kind auth lengthOk block f s)) := by
  unfold serve
  dsimp only
  split
  · exact .same
  · split
    · exact .same
    · split
      · exact hb f.port _ (u := countFrame f.port (shiftIn f.port (f.bytes kind) s)) rfl
      · exact .same

/-- A command of the pattern store, with what the store makes of it. -/
theorem load_exec {c : Instr} {s t : State} (hc : slotCommand c = true) (hr : c ≠ .deviceReset)
    (h : References s) (ht : exec c s = .next t) : Load (inventory s) (inventory t) := by
  have hu : ∀ {u : State}, inventory u = inventory s → References u := fun hi => by
    rw [references_iff, hi]; exact h
  cases c
  case deviceReset => exact absurd rfl hr
  case patternBegin f =>
    obtain rfl := Host.Outcome.next.inj ht
    exact load_serve fun p pl _ _ => load_patternBegin p pl
  case patternSteps f =>
    obtain rfl := Host.Outcome.next.inj ht
    exact load_serve fun p pl _ hi => load_patternSteps p pl (hu hi)
  case patternEnd f =>
    obtain rfl := Host.Outcome.next.inj ht
    exact load_serve fun p pl _ hi => load_patternEnd p pl (hu hi)
  case patternDelete f =>
    obtain rfl := Host.Outcome.next.inj ht
    exact load_serve fun p pl _ hi => load_patternDelete p pl (hu hi)
  all_goals cases hc

/-! ### Every step -/

/-- What a command makes of the inventory: its changes, a content of the pattern store, or a new start. -/
theorem inventory_exec {c : Instr} {s t : State} (h : References s) (ht : exec c s = .next t) :
    Moves (inventory s) (inventory t) ∨ Load (inventory s) (inventory t) ∨ c = .deviceReset := by
  cases hc : slotCommand c with
  | false => exact Or.inl (moves_exec hc ht)
  | true =>
    by_cases hr : c = .deviceReset
    · exact Or.inr (Or.inr hr)
    · exact Or.inr (Or.inl (load_exec hc hr h ht))

/-- The inventory without the pattern store. -/
def Inventory.unslotted (v : Inventory) : Inventory := { v with slots := [], load := none }

theorem ordered_unslotted {v : Inventory} : v.unslotted.Ordered ↔ v.Ordered := Iff.rfl

theorem fits_unslotted {v : Inventory} : v.unslotted.Fits ↔ v.Fits := Iff.rfl

theorem unslotted_serve {kind : Byte} {auth : Option Port} {lengthOk : Nat → Bool}
    {block : Port → List Byte → State → State × Answer} {f : Frame} {s : State}
    (hb : ∀ p pl u, (inventory (block p pl u).1).unslotted = (inventory u).unslotted) :
    (inventory (serve kind auth lengthOk block f s)).unslotted = (inventory s).unslotted := by
  unfold serve
  dsimp only
  split
  · rfl
  · split
    · rfl
    · split
      · exact hb f.port _ (countFrame f.port (shiftIn f.port (f.bytes kind) s))
      · rfl

/-- A command of the pattern store leaves the rest of the inventory alone. -/
theorem unslotted_exec {c : Instr} {s t : State} (hc : slotCommand c = true) (hr : c ≠ .deviceReset)
    (ht : exec c s = .next t) : (inventory t).unslotted = (inventory s).unslotted := by
  cases c
  case deviceReset => exact absurd rfl hr
  case patternBegin f =>
    obtain rfl := Host.Outcome.next.inj ht
    refine unslotted_serve fun p pl u => ?_
    unfold patternBegin; dsimp only; split
    · rfl
    · split
      · rfl
      · split <;> rfl
  case patternSteps f =>
    obtain rfl := Host.Outcome.next.inj ht
    refine unslotted_serve fun p pl u => ?_
    unfold patternSteps; split
    · rfl
    · dsimp only; split <;> rfl
  case patternEnd f =>
    obtain rfl := Host.Outcome.next.inj ht
    refine unslotted_serve fun p pl u => ?_
    unfold patternEnd; split
    · rfl
    · dsimp only; split <;> rfl
  case patternDelete f =>
    obtain rfl := Host.Outcome.next.inj ht
    refine unslotted_serve fun p pl u => ?_
    unfold patternDelete; dsimp only; split
    · rfl
    · split
      · rfl
      · split <;> rfl
      · rfl
  all_goals cases hc

/-- A law of the inventory that its changes and the commands of the pattern store keep, and that a device reset
establishes, is kept by every step. -/
theorem law_step {P : Inventory → Prop} (hm : ∀ {v w}, Moves v w → P v → P w)
    (hl : ∀ {c s t}, slotCommand c = true → c ≠ .deviceReset → exec c s = .next t → P (inventory s) → P (inventory t))
    (hr : ∀ pins, P (inventory (State.powerOn pins))) {s t : State} (hs : P (inventory s)) (h : step s = .next t) :
    P (inventory t) := by
  have hexec : ∀ {c : Instr} {u : State}, P (inventory u) → exec c u = .next t → P (inventory t) := by
    intro c u hu ht
    cases hc : slotCommand c with
    | false => exact hm (moves_exec hc ht) hu
    | true =>
      by_cases hd : c = .deviceReset
      · subst hd
        obtain rfl := Host.Outcome.next.inj ht
        exact hr _
      · exact hl hc hd ht hu
  rcases step_cases h with ⟨-, rfl⟩ | ⟨-, c, -, hc⟩ | ⟨c, rest, -, hc⟩
  · exact hs
  · exact hexec (u := s.nextFree) hs hc
  · exact hexec (u := s.withPending rest) hs hc

end Sys2Proof.Machine

namespace Sys2Proof.Proofs

open Sys2Proof.Machine Sys2Proof.Safety

/-- Settles O51: every change of the inventory, and every command of the pattern store, keeps the counts right. -/
theorem referencesKept : Obligations.ReferencesKept := fun _ _ hs h =>
  law_step Moves.referenced (fun hc hr ht hv => (load_exec hc hr hv ht).referenced hv) references_powerOn hs h

/-- Settles O52: the changes of the inventory keep the run queue well formed; the pattern store does not touch it. -/
theorem ordersKept : Obligations.OrdersKept := fun _ _ hs h =>
  law_step Moves.ordered
    (fun hc hr ht hv => by rwa [← ordered_unslotted, unslotted_exec hc hr ht, ordered_unslotted])
    orders_powerOn hs h

/-- Settles O53: the changes of the inventory respect the capacities; the pattern store does not touch them. -/
theorem capacityKept : Obligations.CapacityKept := fun _ _ hs h =>
  law_step Moves.fits
    (fun hc hr ht hv => by rwa [← fits_unslotted, unslotted_exec hc hr ht, fits_unslotted])
    capacity_powerOn hs h

/-- Settles O20: a change of the inventory leaves every slot's header and steps, and the pattern store writes only a slot
that no order names. -/
theorem referencedSlotKept : Obligations.ReferencedSlotKept := by
  intro c s t hs ht hr i sl sl' hi hpos hi'
  have hkept : slotContents sl' = slotContents sl := by
    rcases inventory_exec hs ht with m | m | rfl
    · have he := congrArg (·[i]?) m.contents
      have ha : (inventory s).slots[i]? = some sl := hi
      have hb : (inventory t).slots[i]? = some sl' := hi'
      simpa [ha, hb] using he
    · exact congrArg _ (m.slot_kept hi hpos hi')
    · exact absurd rfl hr
  rw [slotContents, slotContents, Slot.mk.injEq] at hkept
  obtain ⟨hstate, hlead, htail, hcount, hsteps, -⟩ := hkept
  exact ⟨hstate, hlead, htail, hcount, hsteps⟩

end Sys2Proof.Proofs
end

section
/-! SUPPORT. The requests of the pattern store, and the run queue's LOW setting, from block to answer (R38 to R42,
R52). -/

namespace Sys2Proof.Machine

open Sys2Proof.Safety

/-! ### Slots and step records -/

theorem fin16_val {n : Nat} (h : n ≤ 15) : (fin16 n).val = n := by rw [fin16, dif_pos (by omega)]

theorem fin16_eq {n : Nat} {k : Fin 16} (h : k.val = n) : fin16 n = k :=
  Fin.ext ((fin16_val (by have := k.isLt; omega)).trans h.symm)

theorem slotAt_eq {s : State} {k : Fin 16} {sl : Slot} (h : s.store.slots[k.val]? = some sl) : slotAt s k = sl := by
  rw [slotAt, List.getD_eq_getElem?_getD, h, Option.getD_some]

/-- A change of a slot sets it to what the change makes of it. -/
theorem onSlot_eq_set (k : Fin 16) (f : Slot → Slot) (s : State) :
    onSlot k f s = s.onStore fun st => { st with slots := st.slots.set k.val (f (slotAt s k)) } := by
  simp only [onSlot, State.onStore, slotAt, modify_eq_set_getD _ _ f Slot.cleared]

theorem u16_bytes (pl : List Byte) (i : Nat) : u16 pl i = (pl.getD i 0).toNat + 256 * (pl.getD (i + 1) 0).toNat := by
  simp [u16, leNat]

theorem byte1_toNat (v : Byte) : byte1 v.toNat = [v] := by simp [byte1, leBytes]

theorem byte1_eq (n : Nat) : byte1 n = [BitVec.ofNat 8 n] := by simp [byte1, leBytes]

theorem getD_append_left {a : List Byte} (b : List Byte) {i : Nat} (h : i < a.length) :
    (a ++ b).getD i 0 = a.getD i 0 := by
  rw [List.getD_eq_getElem?_getD, List.getElem?_append_left h, List.getD_eq_getElem?_getD]

theorem getD_append_right (a b : List Byte) (i : Nat) : (a ++ b).getD (a.length + i) 0 = b.getD i 0 := by
  rw [List.getD_eq_getElem?_getD, List.getElem?_append_right (Nat.le_add_right ..), Nat.add_sub_cancel_left,
    List.getD_eq_getElem?_getD]

theorem stepRecAt_append_left (a b : List Byte) {i : Nat} (h : i + 8 < a.length) :
    stepRecAt (a ++ b) i = stepRecAt a i := by
  have hg : ∀ j ≤ 8, (a ++ b).getD (i + j) 0 = a.getD (i + j) 0 := fun j hj => getD_append_left b (by omega)
  simp only [stepRecAt, u8, u16, s8, Nat.add_assoc, hg 1 (by omega), hg 2 (by omega), hg 3 (by omega), hg 4 (by omega),
    hg 5 (by omega), hg 6 (by omega), hg 7 (by omega), hg 8 (by omega), getD_append_left b (show i < a.length by omega)]

theorem stepRecAt_append_right (a b : List Byte) (i : Nat) : stepRecAt (a ++ b) (a.length + i) = stepRecAt b i := by
  simp only [stepRecAt, u8, u16, s8, Nat.add_assoc, getD_append_right]

/-- Nine bytes a record: records before and after a whole number of them stand apart. -/
theorem stepRecs_append {a : List Byte} (b : List Byte) (ha : a.length % 9 = 0) :
    stepRecs (a ++ b) = stepRecs a ++ stepRecs b := by
  have hd : (a ++ b).length / 9 = a.length / 9 + b.length / 9 := by rw [List.length_append]; omega
  rw [stepRecs, hd, List.range_add, List.map_append, List.map_map]
  congr 1
  · refine List.map_congr_left fun k hk => stepRecAt_append_left a b ?_
    have := List.mem_range.mp hk
    omega
  · refine List.map_congr_left fun k _ => ?_
    have hi : 9 * (a.length / 9 + k) = a.length + 9 * k := by omega
    rw [Function.comp, hi, stepRecAt_append_right]

theorem within_eq_true {n lo hi : Nat} : within n lo hi = true ↔ lo ≤ n ∧ n ≤ hi := by simp [within]

theorem within_eq_false {n lo hi : Nat} : within n lo hi = false ↔ n < lo ∨ hi < n := by
  simp [within, imp_iff_not_or]

/-- A record without a failing field. -/
theorem badField_none {r : StepRec} (h : ∀ c, ¬failsAt r c) : badField r = none := by
  have h1 : ¬(3 < r.kind) := h 1
  have h2 : ¬(r.width < 20 ∨ 800 < r.width) := h 2
  have h3 : ¬(r.kind ≠ 3 ∧ 300 < r.depth) := h 3
  have h4 : ¬(r.rep < 1 ∨ 255 < r.rep) := h 4
  have h5 : ¬(r.kind ≠ 3 ∧ (r.press < 20 ∨ 2000 < r.press)) := h 5
  have h6 : ¬(r.kind ≤ 1 ∧ (r.grade < -50 ∨ 50 < r.grade)) := h 6
  simp only [badField, Bool.not_eq_true', within_eq_false, if_neg h1, if_neg h2, if_neg h3, if_neg h4, if_neg h5,
    if_neg h6]

/-- The first failing field of a record. -/
theorem badField_some {r : StepRec} {c : Nat} (hc : failsAt r c) (hlt : ∀ d, d < c → ¬failsAt r d) :
    badField r = some c := by
  have at1 : 1 < c → ¬(3 < r.kind) := hlt 1
  have at2 : 2 < c → ¬(r.width < 20 ∨ 800 < r.width) := hlt 2
  have at3 : 3 < c → ¬(r.kind ≠ 3 ∧ 300 < r.depth) := hlt 3
  have at4 : 4 < c → ¬(r.rep < 1 ∨ 255 < r.rep) := hlt 4
  have at5 : 5 < c → ¬(r.kind ≠ 3 ∧ (r.press < 20 ∨ 2000 < r.press)) := hlt 5
  clear hlt
  unfold badField
  simp only [Bool.not_eq_true', within_eq_false]
  unfold failsAt at hc
  split at hc
  · rw [if_pos hc]
  · rw [if_neg (at1 (by omega)), if_pos hc]
  · rw [if_neg (at1 (by omega)), if_neg (at2 (by omega)), if_pos hc]
  · rw [if_neg (at1 (by omega)), if_neg (at2 (by omega)), if_neg (at3 (by omega)), if_pos hc]
  · rw [if_neg (at1 (by omega)), if_neg (at2 (by omega)), if_neg (at3 (by omega)), if_neg (at4 (by omega)), if_pos hc]
  · rw [if_neg (at1 (by omega)), if_neg (at2 (by omega)), if_neg (at3 (by omega)), if_neg (at4 (by omega)),
      if_neg (at5 (by omega)), if_pos hc]
  · exact hc.elim

/-- The records are all there and good. -/
theorem firstBad_none {n i : Nat} {rs : List StepRec} (h : ∀ j, j < n → ∃ r, rs[j]? = some r ∧ badField r = none) :
    firstBad n i rs = none := by
  induction n generalizing i rs with
  | zero => rfl
  | succ n ih =>
    obtain ⟨r, hr, hb⟩ := h 0 (Nat.succ_pos n)
    cases rs with
    | nil => cases hr
    | cons r' rs =>
      obtain rfl : r' = r := Option.some.inj hr
      rw [firstBad, hb]
      exact ih fun j hj => h (j + 1) (Nat.succ_lt_succ hj)

/-- What stands behind good records decides. -/
theorem firstBad_drop {n i j : Nat} {rs : List StepRec} (hj : j < n)
    (h : ∀ k, k < j → ∃ r, rs[k]? = some r ∧ badField r = none) :
    firstBad n i rs = firstBad (n - j) (i + j) (rs.drop j) := by
  induction j generalizing n i rs with
  | zero => rfl
  | succ j ih =>
    obtain ⟨r, hr, hb⟩ := h 0 (Nat.succ_pos j)
    cases rs with
    | nil => cases hr
    | cons r' rs =>
      obtain rfl : r' = r := Option.some.inj hr
      obtain ⟨m, rfl⟩ : ∃ m, n = m + 1 := ⟨n - 1, by omega⟩
      rw [firstBad, hb, List.drop_succ_cons]
      have hn : m + 1 - (j + 1) = m - j := by omega
      have hi : i + (j + 1) = i + 1 + j := by omega
      rw [hn, hi]
      exact ih (by omega) fun k hk => h (k + 1) (Nat.succ_lt_succ hk)

/-- A record is missing. -/
theorem firstBad_missing {n j : Nat} {rs : List StepRec} (hj : j < n)
    (h : ∀ k, k < j → ∃ r, rs[k]? = some r ∧ badField r = none) (hm : rs[j]? = none) :
    firstBad n 0 rs = some (j, 7) := by
  obtain ⟨m, hn⟩ : ∃ m, n - j = m + 1 := ⟨n - j - 1, by omega⟩
  rw [firstBad_drop hj h, List.drop_eq_nil_iff.mpr (List.getElem?_eq_none_iff.mp hm), hn, firstBad, Nat.zero_add]

/-- A record fails. -/
theorem firstBad_failing {n j c : Nat} {rs : List StepRec} {r : StepRec} (hj : j < n)
    (h : ∀ k, k < j → ∃ r, rs[k]? = some r ∧ badField r = none) (hr : rs[j]? = some r) (hc : badField r = some c) :
    firstBad n 0 rs = some (j, c) := by
  obtain ⟨m, hn⟩ : ∃ m, n - j = m + 1 := ⟨n - j - 1, by omega⟩
  obtain ⟨hlt, rfl⟩ := List.getElem?_eq_some_iff.mp hr
  rw [firstBad_drop hj h, List.drop_eq_getElem_cons hlt, hn, firstBad, hc, Nat.zero_add]

/-! ### The blocks, case by case -/

section
variable {p : Port} {s : State}

theorem patternBegin_badValue {i n l0 l1 t0 t1 : Byte} (h : 15 < i.toNat ∨ n = 0 ∨ 64 < n.toNat) :
    patternBegin p [i, n, l0, l1, t0, t1] s = refuse .badValue s := by
  have hc : 15 < u8 [i, n, l0, l1, t0, t1] 0 ∨ within (u8 [i, n, l0, l1, t0, t1] 1) 1 64 = false := by
    refine h.imp id fun hn => within_eq_false.mpr (hn.imp ?_ id)
    rintro rfl
    exact Nat.one_pos
  exact if_pos hc

/-- PATTERN_BEGIN with its numbers in range. -/
theorem patternBegin_inRange {i n l0 l1 t0 t1 : Byte} {k : Fin 16} (hk : k.val = i.toNat) (h1 : 1 ≤ n.toNat)
    (h64 : n.toNat ≤ 64) :
    patternBegin p [i, n, l0, l1, t0, t1] s =
      if s.store.load.isSome ∧ s.store.load ≠ some k then refuse .busy s
      else if 0 < (slotAt s k).refs then refuse .inUse s
      else okWith [i] (s.onStore fun st =>
        ⟨st.slots.set k.val ⟨.loading, l0.toNat + 256 * l1.toNat, t0.toNat + 256 * t1.toNat, n.toNat, [],
          (slotAt s k).refs⟩, some k⟩) := by
  have hu : u8 [i, n, l0, l1, t0, t1] 0 = i.toNat := rfl
  have hf : fin16 (u8 [i, n, l0, l1, t0, t1] 0) = k := fin16_eq hk
  have hlt := k.isLt
  have hc : ¬(15 < u8 [i, n, l0, l1, t0, t1] 0 ∨ within (u8 [i, n, l0, l1, t0, t1] 1) 1 64 = false) := by
    rw [within_eq_false, hu]
    show ¬(15 < i.toNat ∨ n.toNat < 1 ∨ 64 < n.toNat)
    omega
  unfold patternBegin
  dsimp only
  rw [if_neg hc, hf, onSlot_eq_set, u16_bytes, u16_bytes, hk, byte1_toNat]
  rfl

theorem patternSteps_idle {pl : List Byte} (h : s.store.load = none) :
    patternSteps p pl s = refuse .wrongState s := by rw [patternSteps, h]

theorem patternSteps_loading {pl : List Byte} {k : Fin 16} (h : s.store.load = some k) :
    patternSteps p pl s =
      if (slotAt s k).stepCount < (slotAt s k).steps.length + pl.length / 9 then refuse .full s
      else okWith [BitVec.ofNat 8 ((slotAt s k).steps.length + pl.length / 9)]
        (s.onStore fun st =>
          { st with slots := st.slots.set k.val { slotAt s k with steps := (slotAt s k).steps ++ stepRecs pl } }) := by
  rw [patternSteps, h]
  dsimp only
  rw [onSlot_eq_set, byte1_eq]

theorem patternEnd_idle {pl : List Byte} (h : s.store.load = none) : patternEnd p pl s = refuse .wrongState s := by
  rw [patternEnd, h]

/-- PATTERN_END of a pattern that is not complete. -/
theorem patternEnd_bad {pl : List Byte} {k : Fin 16} {j c : Nat} (h : s.store.load = some k)
    (hb : firstBad (slotAt s k).stepCount 0 (slotAt s k).steps = some (j, c)) :
    patternEnd p pl s = (s, ⟨.badValue, [BitVec.ofNat 8 j, BitVec.ofNat 8 c]⟩) := by
  rw [patternEnd, h]
  dsimp only
  rw [hb, byte1_eq, byte1_eq]
  rfl

theorem patternEnd_good {pl : List Byte} {k : Fin 16} (h : s.store.load = some k)
    (hb : firstBad (slotAt s k).stepCount 0 (slotAt s k).steps = none) :
    patternEnd p pl s = okWith [BitVec.ofNat 8 k.val, BitVec.ofNat 8 (slotAt s k).stepCount]
      (s.onStore fun st => ⟨st.slots.set k.val { slotAt s k with state := .valid }, none⟩) := by
  rw [patternEnd, h]
  dsimp only
  rw [hb, byte1_eq, byte1_eq, onSlot_eq_set]
  rfl

theorem patternDelete_badValue {i : Byte} (h : 15 < i.toNat) : patternDelete p [i] s = refuse .badValue s := if_pos h

/-- PATTERN_DELETE of a slot, by what it holds. -/
theorem patternDelete_slot {i : Byte} {k : Fin 16} (hk : k.val = i.toNat) :
    patternDelete p [i] s =
      match (slotAt s k).state with
      | .empty => refuse .notFound s
      | .valid =>
        if 0 < (slotAt s k).refs then refuse .inUse s
        else okWith [] (s.onStore fun st => { st with slots := st.slots.set k.val Slot.cleared })
      | .loading =>
        okWith [] (s.onStore fun st =>
          ⟨st.slots.set k.val { Slot.cleared with refs := (slotAt s k).refs }, none⟩) := by
  have hf : fin16 (u8 [i] 0) = k := fin16_eq hk
  have hlt := k.isLt
  unfold patternDelete
  dsimp only
  rw [if_neg (show ¬15 < u8 [i] 0 by show ¬15 < i.toNat; omega), hf, onSlot_eq_set, onSlot_eq_set]
  rfl

end

/-! ### From block to answer -/

section
variable {kind : Byte} {block : Port → List Byte → State → State × Answer} {f : Frame} {s : State}

/-- A refusal's answer. -/
theorem answeredBy_refused {st : Status}
    (h : block f.port f.payload (received kind f s) = refuse st (received kind f s)) :
    answeredBy kind block f s = answered kind f st [] s := answeredBy_same (a := ⟨st, []⟩) h

/-- The answer around a change of the pattern store. -/
theorem answeredBy_store {g : Store → Store} {pl : List Byte}
    (h : block f.port f.payload (received kind f s) = okWith pl ((received kind f s).onStore g)) :
    answeredBy kind block f s = answered kind f .ok pl { s with store := g s.store } :=
  answeredBy_eq (t := (received kind f s).onStore g) (a := ⟨.ok, pl⟩) h rfl

end

end Sys2Proof.Machine

namespace Sys2Proof.Proofs

open Sys2Proof.Machine Sys2Proof.Safety

/-- Settles O23: the value is tried against its range, then the answer carries the one it replaces. -/
theorem queueLowSet : Obligations.QueueLowSet := by
  intro v extra s
  dsimp only
  refine ⟨fun h => ?_, fun h => ?_⟩
  · refine (exec_queueLowSet s (by simp) rfl rfl).trans (congrArg _ (answeredBy_same (a := ⟨.badValue, []⟩) ?_))
    rw [Machine.queueLowSet, if_pos (show 7 < u8 [v] 0 from h)]; rfl
  · refine (exec_queueLowSet s (by simp) rfl rfl).trans (congrArg _ ((answeredBy_eq (a := ⟨.ok, byte1 s.queue.low⟩)
      (t := (received 0x27 ⟨.pattern, [v], extra⟩ s).onQueue fun q => { q with low := v.toNat }) ?_ rfl).trans ?_))
    · rw [Machine.queueLowSet, if_neg (show ¬7 < u8 [v] 0 from Nat.not_lt.mpr h)]; rfl
    · rw [byte1_eq]; rfl

/-- Settles O16: the checks of PATTERN_BEGIN in their order, each one a case of the block. -/
theorem patternBegin : Obligations.PatternBegin := by
  intro f s hport hlen
  refine ⟨fun h6 => ?length, fun i n l0 l1 t0 t1 hpl => ?_⟩
  case length =>
    exact congrArg Host.Outcome.next (serve_badLength s hlen (Or.inr (congrArg some hport.symm)) (by simpa [exactly] using h6))
  have hexec := exec_patternBegin s hlen hport (by rw [hpl]; rfl)
  refine ⟨fun hbad => ?badValue, fun k hk h1 h64 => ⟨fun j hj hjk => ?busy, fun hl hr => ?inUse, fun hl hr _ => ?taken⟩⟩
  case badValue =>
    exact hexec.trans (congrArg _ (answeredBy_refused (by rw [hpl]; exact patternBegin_badValue hbad)))
  case busy =>
    refine hexec.trans (congrArg _ (answeredBy_refused ?_))
    have hbusy : (received 0x20 f s).store.load.isSome ∧ (received 0x20 f s).store.load ≠ some k := by
      simp [hj, hjk]
    rw [hpl, patternBegin_inRange hk h1 h64, if_pos hbusy]
  all_goals
    have hfree : ¬((received 0x20 f s).store.load.isSome ∧ (received 0x20 f s).store.load ≠ some k) := by
      rcases hl with hl | hl <;> simp [hl]
  case inUse =>
    refine hexec.trans (congrArg _ (answeredBy_refused ?_))
    rw [hpl, patternBegin_inRange hk h1 h64, if_neg hfree]
    exact if_pos hr
  case taken =>
    refine hexec.trans (congrArg _ (answeredBy_store (g := fun st => ⟨st.slots.set k.val _, some k⟩) ?_))
    rw [hpl, patternBegin_inRange hk h1 h64, if_neg hfree,
      if_neg (show ¬0 < (slotAt (received 0x20 f s) k).refs from Nat.not_lt.mpr (Nat.le_of_eq hr)),
      show (slotAt (received 0x20 f s) k).refs = 0 from hr]

/-- The lengths that PATTERN_STEPS takes. -/
theorem stepsLength_iff (n : Nat) : stepsLength n = true ↔ n ∈ [9, 18, 27, 36, 45, 54] := by
  simp only [stepsLength, within, Bool.and_eq_true, decide_eq_true_eq, List.mem_cons, List.not_mem_nil, or_false]
  omega

/-- Settles O17: the block by the load context and the room in its slot, and the layout of a record. -/
theorem patternSteps : Obligations.PatternSteps := by
  refine ⟨fun f s hport hlen => ⟨fun hbad => ?length, fun hok hidle => ?idle, fun hok k sl hload hsl => ?loading⟩,
    fun k w0 w1 d0 d1 r p0 p1 g => ?layout, fun a b ha => stepRecs_append b ha⟩
  case length =>
    have hb : stepsLength f.payload.length = false := by rw [← Bool.not_eq_true, stepsLength_iff]; exact hbad
    exact congrArg Host.Outcome.next (serve_badLength s hlen (Or.inr (congrArg some hport.symm)) hb)
  case layout =>
    have hone : stepRecs [k, w0, w1, d0, d1, r, p0, p1, g] = [stepRecAt [k, w0, w1, d0, d1, r, p0, p1, g] 0] := by
      simp [stepRecs, List.range_succ]
    rw [hone, stepRecAt, u16_bytes, u16_bytes, u16_bytes]
    rfl
  all_goals have hexec := exec_patternSteps s hlen hport ((stepsLength_iff _).mpr hok)
  case idle => exact hexec.trans (congrArg _ (answeredBy_refused (patternSteps_idle hidle)))
  case loading =>
    obtain rfl : slotAt s k = sl := slotAt_eq hsl
    have hb := patternSteps_loading (p := f.port) (s := received 0x21 f s) (pl := f.payload) hload
    refine ⟨fun hfull => ?_, fun hroom => ?_⟩
    · exact hexec.trans (congrArg _ (answeredBy_refused (hb.trans (if_pos hfull))))
    · exact hexec.trans (congrArg _ (answeredBy_store (hb.trans (if_neg (Nat.not_lt.mpr hroom)))))

/-- Settles O18: the block by what its search of the records finds. -/
theorem patternEnd : Obligations.PatternEnd := by
  intro f s hport hlen
  refine ⟨fun hne => ?length, fun hpl hidle => ?idle, fun hpl k sl hload hsl => ?loading⟩
  case length =>
    have hb : exactly 0 f.payload.length = false := by simpa [exactly] using hne
    exact congrArg Host.Outcome.next (serve_badLength s hlen (Or.inr (congrArg some hport.symm)) hb)
  all_goals have hexec := exec_patternEnd s hlen hport (by rw [hpl]; rfl)
  case idle => exact hexec.trans (congrArg _ (answeredBy_refused (patternEnd_idle hidle)))
  case loading =>
    obtain rfl : slotAt s k = sl := slotAt_eq hsl
    intro good
    have hgood : ∀ {j}, good j → ∃ r, (slotAt s k).steps[j]? = some r ∧ badField r = none :=
      fun ⟨r, hr, hn⟩ => ⟨r, hr, badField_none hn⟩
    have hbad : ∀ {j c}, firstBad (slotAt s k).stepCount 0 (slotAt s k).steps = some (j, c) →
        exec (.patternEnd f) s = .next (answered 0x22 f .badValue [BitVec.ofNat 8 j, BitVec.ofNat 8 c] s) := fun hb =>
      hexec.trans (congrArg _ (answeredBy_same (patternEnd_bad (s := received 0x22 f s) hload hb)))
    refine ⟨fun hall => ⟨?_, fun href => (loadSlot_free href hload).2⟩, fun i hi hbefore => ⟨fun hm => ?_, fun r c hr hc hd => ?_⟩⟩
    · have hb := firstBad_none (i := 0) fun j hj => hgood (hall j hj)
      exact hexec.trans (congrArg _ (answeredBy_store (patternEnd_good (s := received 0x22 f s) hload hb)))
    · exact hbad (firstBad_missing hi (fun j hj => hgood (hbefore j hj)) hm)
    · exact hbad (firstBad_failing hi (fun j hj => hgood (hbefore j hj)) hr (badField_some hc hd))

/-- Settles O19: the block by the state of the slot and its references. -/
theorem patternDelete : Obligations.PatternDelete := by
  intro f s hport hlen
  refine ⟨fun h1 => ?length, fun i hpl => ?_⟩
  case length =>
    have hb : exactly 1 f.payload.length = false := by simpa [exactly] using h1
    exact congrArg Host.Outcome.next (serve_badLength s hlen (Or.inr (congrArg some hport.symm)) hb)
  have hexec := exec_patternDelete s hlen hport (by rw [hpl]; rfl)
  refine ⟨fun hbig => ?badValue, fun sl hsl hi => ?slot⟩
  case badValue =>
    exact hexec.trans (congrArg _ (answeredBy_refused (by rw [hpl]; exact patternDelete_badValue hbig)))
  case slot =>
    obtain ⟨k, hk⟩ : ∃ k : Fin 16, k.val = i.toNat := ⟨⟨i.toNat, by omega⟩, rfl⟩
    rw [← hk] at hsl ⊢
    obtain rfl : slotAt s k = sl := slotAt_eq hsl
    have hblock := patternDelete_slot (p := f.port) (s := received 0x23 f s) hk
    rw [← hpl] at hblock
    have hstate : ∀ {x}, (slotAt s k).state = x → (slotAt (received 0x23 f s) k).state = x := id
    refine ⟨fun hs => ?_, fun hs hr => ?_, fun hs hr => ?_, fun hs => ?_⟩ <;> rw [hstate hs] at hblock
    · exact hexec.trans (congrArg _ (answeredBy_refused hblock))
    · exact hexec.trans (congrArg _ (answeredBy_refused (hblock.trans (if_pos hr))))
    · exact hexec.trans (congrArg _ (answeredBy_store (hblock.trans (if_neg (Nat.not_lt.mpr (Nat.le_of_eq hr))))))
    · exact hexec.trans (congrArg _ (answeredBy_store hblock))

end Sys2Proof.Proofs
end

section
/-! SUPPORT. What ORDER_CANCEL makes of a former that is not HELD at a boundary (R46, R50, R51). -/

namespace Sys2Proof.Machine

open Sys2Proof.Safety

/-- Space is no news to a former that does not wait at a boundary (R74). -/
theorem handle_space_quiet {s : State} (h : heldAtBoundary s.former = false) : handle .space s = quiet s := by
  show spaceTest s = quiet s
  rw [spaceTest, if_neg]
  simpa [heldAtBoundary] using h

theorem settle_space_quiet {s : State} (hj : JointFlags s) (h : heldAtBoundary s.former = false) :
    settle (s, [.space]) = s := by
  have hs := flagJoints_self hj
  refine Settles.settle (k := 1) ?_ (by decide)
  rw [hs]
  exact Settles.skip (handle_space_quiet h) hs (Settles.done s)

section
variable {p : Port} {s : State} {i : Byte} {before after : List Order} {o : Order}

theorem orderCancel_unknown (h : ∀ o ∈ s.queue.orders, o.id ≠ i.toNat) :
    orderCancel p [i] s = refuse .notFound s := by
  have hf : s.queue.orders.find? (fun o => o.id == u8 [i] 0) = none :=
    List.find?_eq_none.mpr fun o ho => by simpa [u8] using h o ho
  rw [orderCancel, hf]

theorem find_order (hos : s.queue.orders = before ++ o :: after) (hb : ∀ x ∈ before, x.id ≠ o.id)
    (hid : o.id = i.toNat) : s.queue.orders.find? (fun o => o.id == u8 [i] 0) = some o := by
  refine List.find?_eq_some_iff_append.mpr ⟨by simp [hid, u8], before, after, hos, fun x hx => ?_⟩
  have hne := hb x hx
  rw [hid] at hne
  simpa [u8] using hne

/-- The order that is active is the one at the head. -/
theorem isActiveOrder_iff (hos : s.queue.orders = before ++ o :: after) (hb : ∀ x ∈ before, x.id ≠ o.id) :
    isActiveOrder s o.id = true ↔ s.queue.active = true ∧ before = [] := by
  rw [isActiveOrder, hos, Bool.and_eq_true]
  refine and_congr_right fun _ => ?_
  cases before with
  | nil => simp
  | cons x xs => simpa using hb x List.mem_cons_self

/-- The slots with one reference to an order's pattern fewer. -/
def freedStore (o : Order) (s : State) : Store :=
  { s.store with
    slots := s.store.slots.set o.pattern.val { slotAt s o.pattern with refs := (slotAt s o.pattern).refs - 1 } }

theorem dropReference_eq (o : Order) (s : State) : dropReference o.pattern s = { s with store := freedStore o s } :=
  onSlot_eq_set _ _ _

theorem retire_head (hos : s.queue.orders = o :: after) (k : Nat) :
    retire k s = raise .orderDone (byte1 o.id ++ byte1 o.pattern.val ++ bytes2 o.done ++ byte1 k)
      { s with queue := { s.queue with orders := after, active := false }, store := freedStore o s } := by
  rw [retire, hos]
  dsimp only
  rw [dropReference_eq]
  rfl

theorem onHead_eq (hos : s.queue.orders = o :: after) (f : Order → Order) :
    onHead f s = { s with queue := { s.queue with orders := f o :: after } } := by
  rw [onHead, State.onQueue, hos]; rfl

/-- RUN_QUEUE_LOW, where the queued count has fallen to the low mark (R52). -/
theorem queuedFell_eq (s : State) :
    queuedFell s = { s with
      router := if queuedCount s.queue ≤ s.queue.low then
        s.router.map (notePort .runQueueLow [BitVec.ofNat 8 (queuedCount s.queue), BitVec.ofNat 8 s.queue.low])
        else s.router } := by
  unfold queuedFell
  rw [byte1_eq, byte1_eq]
  split <;> rfl

theorem removeOrder_split (hos : s.queue.orders = before ++ o :: after) (hb : ∀ x ∈ before, x.id ≠ o.id) :
    removeOrder o s =
      queuedFell { s with queue := { s.queue with orders := before ++ after }, store := freedStore o s } := by
  rw [removeOrder, dropReference_eq, State.onQueue, hos, eraseP_order hb]
  rfl

/-- ORDER_CANCEL of an order that is there. -/
theorem orderCancel_found (hos : s.queue.orders = before ++ o :: after) (hb : ∀ x ∈ before, x.id ≠ o.id)
    (hid : o.id = i.toNat) :
    orderCancel p [i] s =
      if o.frozen then refuse .inUse s
      else if isActiveOrder s o.id then
        if o.cancel then (s, ⟨.accepted, []⟩)
        else if s.former.panel.isSome then (onHead (fun x => { x with cancel := true }) s, ⟨.accepted, []⟩)
        else okWith [] (settle (retire 1 s, [.space]))
      else okWith [] (settle (removeOrder o s, [.space])) := by
  rw [orderCancel, find_order hos hb hid]

section
variable (hos : s.queue.orders = before ++ o :: after) (hb : ∀ x ∈ before, x.id ≠ o.id) (hid : o.id = i.toNat)
include hos hb hid

theorem orderCancel_frozen (hf : o.frozen = true) : orderCancel p [i] s = refuse .inUse s :=
  (orderCancel_found hos hb hid).trans (if_pos hf)

theorem orderCancel_removed (hf : o.frozen = false) (ha : ¬(s.queue.active = true ∧ before = []))
    (hh : heldAtBoundary s.former = false) (hj : JointFlags s) :
    orderCancel p [i] s =
      ({ s with
        queue := { s.queue with orders := before ++ after }
        store := freedStore o s
        router :=
          let queued := (before ++ after).length - if s.queue.active = true then 1 else 0
          if queued ≤ s.queue.low then
            s.router.map (notePort .runQueueLow [BitVec.ofNat 8 queued, BitVec.ofNat 8 s.queue.low])
          else s.router }, ⟨.ok, []⟩) := by
  have hn : ¬isActiveOrder s o.id = true := by rwa [isActiveOrder_iff hos hb]
  have hq : settle (removeOrder o s, [.space]) = removeOrder o s :=
    settle_space_quiet (by rw [removeOrder_split hos hb, queuedFell_eq]; exact hj)
      (by rw [removeOrder_split hos hb, queuedFell_eq]; exact hh)
  rw [orderCancel_found hos hb hid, if_neg (by simp [hf]), if_neg hn, hq, removeOrder_split hos hb,
    queuedFell_eq]
  rfl

end

/-! ORDER_CANCEL of the active order. -/

section
variable (hos : s.queue.orders = o :: after) (hact : s.queue.active = true) (hid : o.id = i.toNat)
  (hf : o.frozen = false)
include hos hact hid hf

theorem orderCancel_active :
    orderCancel p [i] s =
      if o.cancel then (s, ⟨.accepted, []⟩)
      else if s.former.panel.isSome then (onHead (fun x => { x with cancel := true }) s, ⟨.accepted, []⟩)
      else okWith [] (settle (retire 1 s, [.space])) := by
  have hb : ∀ x ∈ ([] : List Order), x.id ≠ o.id := by simp
  rw [orderCancel_found (before := []) hos hb hid, if_neg (by simp [hf]),
    if_pos ((isActiveOrder_iff (before := []) hos hb).mpr ⟨hact, rfl⟩)]

theorem orderCancel_forming (hc : o.cancel = false) (hp : s.former.panel ≠ none) :
    orderCancel p [i] s =
      ({ s with queue := { s.queue with orders := { o with cancel := true } :: after } }, ⟨.accepted, []⟩) := by
  rw [orderCancel_active hos hact hid hf, if_neg (by simp [hc]), if_pos (Option.isSome_iff_ne_none.mpr hp),
    onHead_eq hos]

theorem orderCancel_retired (hc : o.cancel = false) (hp : s.former.panel = none)
    (hh : heldAtBoundary s.former = false) (hj : JointFlags s) :
    orderCancel p [i] s =
      (raise .orderDone ([BitVec.ofNat 8 o.id, BitVec.ofNat 8 o.pattern.val] ++ bytes2 o.done ++ [1])
        { s with queue := { s.queue with orders := after, active := false }, store := freedStore o s }, ⟨.ok, []⟩) := by
  have hq : settle (retire 1 s, [.space]) = retire 1 s :=
    settle_space_quiet (by rw [retire_head hos]; exact hj) (by rw [retire_head hos]; exact hh)
  rw [orderCancel_active hos hact hid hf, if_neg (by simp [hc]), if_neg (by simp [hp]), hq, retire_head hos, byte1_eq,
    byte1_eq, byte1_eq]
  rfl

end

end

end Sys2Proof.Machine

namespace Sys2Proof.Proofs

open Sys2Proof.Machine Sys2Proof.Safety

/-- Settles O22: the block by the order found, with the news of space lost on a former that does not wait for it. -/
theorem orderCancel : Obligations.OrderCancel := by
  intro i extra s
  dsimp only
  have hexec := exec_orderCancel (f := ⟨.pattern, [i], extra⟩) s (by simp) rfl rfl
  refine ⟨fun hnone => ?unknown, fun before o after hos hb hid => ?known⟩
  case unknown => exact hexec.trans (congrArg _ (answeredBy_refused (orderCancel_unknown hnone)))
  case known =>
    have hhead : before = [] → s.queue.orders = o :: after := by rintro rfl; exact hos
    refine ⟨fun hfr => ?_, fun hfr ha hc => ?_, fun hfr ha hc hp => ?_, fun hfr ha hc hp hh hj _ => ?_,
      fun hfr ha hh hj _ => ?_⟩
    · exact hexec.trans (congrArg _ (answeredBy_refused (orderCancel_frozen hos hb hid hfr)))
    · refine hexec.trans (congrArg _ (answeredBy_same (a := ⟨.accepted, []⟩) ?_))
      exact (orderCancel_active (s := received 0x25 _ s) (hhead ha.2) ha.1 hid hfr).trans (if_pos hc)
    · have hblock := orderCancel_forming (p := .pattern) (s := received 0x25 ⟨.pattern, [i], extra⟩ s) (hhead ha.2) ha.1
        hid hfr hc hp
      exact hexec.trans (congrArg _ (answeredBy_eq hblock rfl))
    · have hblock := orderCancel_retired (p := .pattern) (s := received 0x25 ⟨.pattern, [i], extra⟩ s) (hhead ha.2) ha.1
        hid hfr hc hp hh hj
      exact hexec.trans (congrArg _ (answeredBy_eq hblock rfl))
    · have hblock := orderCancel_removed (p := .pattern) (s := received 0x25 ⟨.pattern, [i], extra⟩ s) hos hb hid hfr ha
        hh hj
      exact hexec.trans (congrArg _ (answeredBy_eq hblock rfl))

end Sys2Proof.Proofs
end

section
/-! SUPPORT. What LINE_RESET makes of every block (R122, R187). -/

namespace Sys2Proof.Machine

open Sys2Proof.Safety

/-- A zone's line-reset values (R122). -/
def zoneReset (q : Zone) : Zone :=
  { q with target := 0, blank := 5, settle := 0, duty := 0, windowDuty := 0, valve := false }

/-- A zone and its monitor at their line-reset values: the valve and duties last, on the same zone. -/
theorem resetZone_eq (z : Fin 4) (s : State) :
    (changeTarget z 0 s).onZone z shutZone = (s.onZone z zoneReset).onZoneMonitor z monitorNewTarget := by
  simp only [changeTarget, State.onZone, State.onZoneMonitor, Four.get_set_same, Four.set_set]
  rfl

/-- A change of each of four, taken in order, is the change of all. -/
theorem Four.map_eq_sets {α : Type} (q : Four α) (f : α → α) :
    (((q.set 0 (f (q.get 0))).set 1 (f (q.get 1))).set 2 (f (q.get 2))).set 3 (f (q.get 3)) = q.map f := rfl

/-- A change of each zone and its monitor, taken in order, is the change of all. -/
theorem foldl_zonesInOrder (f : Zone → Zone) (g : ZoneMonitor → ZoneMonitor) (s : State) :
    zonesInOrder.foldl (fun a z => (a.onZone z f).onZoneMonitor z g) s =
      { s with zones := s.zones.map f, monitor := { s.monitor with zones := s.monitor.zones.map g } } := by
  simp only [zonesInOrder, List.foldl_cons, List.foldl_nil, State.onZone, State.onZoneMonitor, Four.get_set,
    Fin.reduceEq, if_false, Four.map_eq_sets]

theorem resetZones_eq (s : State) :
    resetZones s = { s with
      zones := s.zones.map zoneReset
      monitor := { s.monitor with zones := s.monitor.zones.map monitorNewTarget }
      settledReported := false } := by
  simp only [resetZones, resetZone_eq, foldl_zonesInOrder]
  rfl

theorem lineResetState_eq (s : State) :
    lineResetState s = { s with
      tracker := resetTracker s.tracker
      queue := { s.queue with orders := [], active := false }
      store := { s.store with slots := s.store.slots.map fun sl => { sl with refs := 0 } }
      dose := resetDose s.dose
      former := Former.atRest s.former.set
      roll := { s.roll with planner := Planner.reset, cut := Cut.reset }
      sup := resetSupervisor s.sup
      monitor := { s.monitor with breakTimer := none } } := by
  simp only [lineResetState, State.onTracker, State.onQueue, State.onStore, State.onDose, State.onFormer,
    State.onPlanner, State.onCut, State.onSup, State.onMonitor]

theorem lineReset_refused {p : Port} {pl : List Byte} {s : State} (h1 : s.sup.line ≠ .stopped)
    (h2 : s.sup.line ≠ .tripped) : lineReset p pl s = refuse .wrongState s := by
  rw [lineReset, if_neg]
  cases hl : s.sup.line <;> simp_all [standby]

theorem lineReset_taken {p : Port} {pl : List Byte} {s : State} (h : s.sup.line = .stopped ∨ s.sup.line = .tripped) :
    lineReset p pl s = okWith (bytes2 (panelsDiscarded s))
      (raise .lineResetDone (bytes2 (panelsDiscarded s)) (resetZones (lineResetState s))) := by
  rw [lineReset, if_pos]
  rcases h with h | h <;> rw [h] <;> rfl

end Sys2Proof.Machine

namespace Sys2Proof.Proofs

open Sys2Proof.Machine Sys2Proof.Safety

/-- Settles O33: the block's two cases; what is reset and kept is read off the state it answers with. -/
theorem lineReset : Obligations.LineReset := by
  intro extra s
  dsimp only
  have hexec := exec_lineReset (f := ⟨.line, [], extra⟩) s (by simp) rfl rfl
  refine ⟨fun h1 h2 => ?refused, fun h => ?taken⟩
  case refused => exact hexec.trans (congrArg _ (answeredBy_refused (lineReset_refused h1 h2)))
  case taken =>
    have hblock := lineReset_taken (p := .line) (pl := []) (s := received 0x12 ⟨.line, [], extra⟩ s) h
    rw [resetZones_eq, lineResetState_eq] at hblock
    refine ⟨_, hexec.trans (congrArg _ (answeredBy_eq hblock rfl)), rfl, rfl, rfl, rfl, rfl, rfl, rfl, rfl,
      fun z => ?_, rfl, fun z => ?_, rfl, rfl, rfl, rfl, rfl⟩
    · exact Four.get_map zoneReset s.zones z
    · exact Four.get_map monitorNewTarget s.monitor.zones z

end Sys2Proof.Proofs
end

section
/-! SUPPORT. Cascades of which the end is not known in full: what holds at the end, whatever fuel is left; and the
signals that leave all but the planner, the frozen flags and the reports of it as they are. -/

namespace Sys2Proof.Machine

open Sys2Proof.Safety

/-! ### Where a cascade leads -/

/-- Within `k` signals the cascade of `l` from `s` is done, and `Q` holds of its end. -/
def Leads (k : Nat) (l : List Sig) (s : State) (Q : State → Prop) : Prop := ∀ n, k ≤ n → Q (cascade n l s)

section
variable {Q : State → Prop} {k : Nat} {g : Sig} {rest : List Sig} {s : State}

theorem Leads.done (h : Q s) : Leads 0 [] s Q := fun n _ => by rwa [cascade_nil]

theorem Leads.take (h : Leads k ((handle g s).2 ++ rest) (flagJoints (handle g s).1) Q) :
    Leads (k + 1) (g :: rest) s Q := fun n hn => by
  rw [cascade_cons (by omega)]
  exact h _ (by omega)

theorem Leads.skip (hg : handle g s = quiet s) (hf : flagJoints s = s) (h : Leads k rest s Q) :
    Leads (k + 1) (g :: rest) s Q := by
  refine Leads.take ?_
  rw [hg, quiet, hf]
  exact h

theorem Leads.mono {j : Nat} {l : List Sig} (hjk : j ≤ k) (h : Leads j l s Q) : Leads k l s Q := fun n hn =>
  h n (hjk.trans hn)

theorem Leads.weaken {R : State → Prop} {l : List Sig} (hqr : ∀ t, Q t → R t) (h : Leads k l s Q) : Leads k l s R :=
  fun n hn => hqr _ (h n hn)

theorem Leads.settle {w : Work} (h : Leads k w.2 (flagJoints w.1) Q) (hk : k ≤ cascadeFuel) : Q (settle w) := h _ hk

end

/-! ### The core of a state -/

/-- A state with everything set aside that the planner and the reports of it may change: its own record, the splice limit,
the frozen flags, the settled condition, and the event records. -/
def core (s : State) : State :=
  { s with
    router := State.reset.router
    queue := { s.queue with orders := s.queue.orders.map thawed }
    settledReported := false
    roll := { s.roll with planner := Planner.reset }
    sup := { s.sup with spliceLimit := false } }

/-- What the core holds of a state, two states with the same core have in common. -/
theorem core_proj {α : Type} (f : State → α) {s u : State} (h : core u = core s) (hf : ∀ t, f (core t) = f t) :
    f u = f s := (hf u).symm.trans ((congrArg f h).trans (hf s))

section
variable {s u : State} (h : core u = core s)
include h

theorem core_former : u.former = s.former := core_proj State.former h fun _ => rfl
theorem core_tracker : u.tracker = s.tracker := core_proj State.tracker h fun _ => rfl
theorem core_store : u.store = s.store := core_proj State.store h fun _ => rfl
theorem core_dose : u.dose = s.dose := core_proj State.dose h fun _ => rfl
theorem core_zones : u.zones = s.zones := core_proj State.zones h fun _ => rfl
theorem core_monitor : u.monitor = s.monitor := core_proj State.monitor h fun _ => rfl
theorem core_active : u.queue.active = s.queue.active := core_proj (fun t => t.queue.active) h fun _ => rfl
theorem core_orders : u.queue.orders.map thawed = s.queue.orders.map thawed := congrArg (fun t => t.queue.orders) h
theorem core_line : u.sup.line = s.sup.line := core_proj (fun t => t.sup.line) h fun _ => rfl
theorem core_prev : u.sup.prev = s.sup.prev := core_proj (fun t => t.sup.prev) h fun _ => rfl
theorem core_causes : u.sup.causes = s.sup.causes := core_proj (fun t => t.sup.causes) h fun _ => rfl
theorem core_hood : u.sup.hood = s.sup.hood := core_proj (fun t => t.sup.hood) h fun _ => rfl
theorem core_motion : motion u = motion s := core_proj motion h fun _ => rfl

end

section
variable (s : State)

@[simp] theorem core_raise (k : EventKind) (d : List Byte) : core (raise k d s) = core s := rfl
@[simp] theorem core_onPlanner (f : Planner → Planner) : core (s.onPlanner f) = core s := rfl
@[simp] theorem core_withSettled (b : Bool) : core (s.withSettled b) = core s := rfl
@[simp] theorem core_spliceLimit (b : Bool) : core (s.onSup fun v => { v with spliceLimit := b }) = core s := rfl

@[simp] theorem core_nameFreeze (n : Option Nat) : core (nameFreeze n s) = core s := by
  simp [core, nameFreeze, thawed_frozenBy]

@[simp] theorem core_testRollLow : core (testRollLow s) = core s := by
  unfold testRollLow; split
  · rfl
  · split <;> simp

@[simp] theorem core_schedule (c : Candidate) : core (schedule c s) = core s := by simp [schedule, announce]
@[simp] theorem core_unschedule : core (unschedule s) = core s := by simp [unschedule]
@[simp] theorem core_forceSplice : core (forceSplice s) = core s := by simp [forceSplice, announce]
@[simp] theorem core_announceFailure (c : Nat) (p : Option Pos) : core (announceFailure c p s) = core s := rfl

@[simp] theorem core_leaveFired : core (leaveFired s) = core s := by simp [leaveFired]

@[simp] theorem core_search (b : Bool) : core (search b s).1 = core s := by
  unfold search; dsimp only; split
  · simp
  · simp
  · split
    · rfl
    · split <;> simp [quiet]
  · split <;> simp [quiet]
  all_goals rfl

@[simp] theorem core_deadlineTest : core (deadlineTest s).1 = core s := by
  unfold deadlineTest; split
  · split <;> simp [quiet]
  · rfl

@[simp] theorem core_approachTest : core (approachTest s).1 = core s := by
  unfold approachTest; split
  · split <;> rfl
  · rfl

@[simp] theorem core_fireTest : core (fireTest s).1 = core s := by
  unfold fireTest; split
  · split <;> rfl
  · rfl

@[simp] theorem core_dueExpiryTest : core (dueExpiryTest s).1 = core s := by
  unfold dueExpiryTest; split
  · rfl
  · split <;> rfl

@[simp] theorem core_withdrawSplice (c : Option FailCause) : core (withdrawSplice c s).1 = core s := by
  unfold withdrawSplice; split
  · cases c <;> simp
  · rfl

@[simp] theorem core_reportSettled (b : Bool) : core (reportSettled b s).1 = core s := by
  unfold reportSettled; dsimp only; split
  · rfl
  · split <;> rfl

end

/-! ### Light signals -/

/-- The signals of the planner and of the settled condition that leave the core of a state whose line is not WARMING
and whose former runs no bridge. -/
def lightSignal : Sig → Bool
  | .warm | .settled _ | .bridge | .search _ | .deadline | .approach | .fire | .dueExpiry | .cancelSplice _ => true
  | _ => false

/-- What may follow from a light signal. -/
def lightFollows : Sig → List (List Sig)
  | .settled _ => [[], [.warm, .bridge]]
  | .search _ => [[], [.approach], [.deadline], [.bridge, .deadline]]
  | .dueExpiry | .cancelSplice _ => [[], [.bridge]]
  | _ => [[]]

/-- A bound of the signals that follow from a light one, itself counted. -/
def signalLoad : Sig → Nat
  | .settled _ | .search _ => 3
  | .dueExpiry | .cancelSplice _ => 2
  | _ => 1

def listLoad (gs : List Sig) : Nat := (gs.map signalLoad).sum

theorem lightFollows_light {g : Sig} {gs : List Sig} (h : gs ∈ lightFollows g) :
    (∀ g' ∈ gs, lightSignal g' = true) ∧ listLoad gs < signalLoad g := by
  cases g
  case settled b =>
    simp only [lightFollows, List.mem_cons, List.not_mem_nil, or_false] at h
    rcases h with rfl | rfl <;> simp [lightSignal, listLoad, signalLoad]
  case search b =>
    simp only [lightFollows, List.mem_cons, List.not_mem_nil, or_false] at h
    rcases h with rfl | rfl | rfl | rfl <;> simp [lightSignal, listLoad, signalLoad]
  case dueExpiry | cancelSplice =>
    simp only [lightFollows, List.mem_cons, List.not_mem_nil, or_false] at h
    rcases h with rfl | rfl <;> simp [lightSignal, listLoad, signalLoad]
  all_goals
    obtain rfl : gs = [] := List.mem_singleton.mp h
    simp [listLoad, signalLoad]

/-- The kinds of event that no light signal raises. -/
def heavyKind (k : EventKind) : Prop :=
  k ≠ .spliceScheduled ∧ k ≠ .spliceFailed ∧ k ≠ .rollLow ∧ k ≠ .zonesSettled

/-- What a light signal makes of a state. -/
structure Beside (s u : State) : Prop where
  core : core u = core s
  records : ∀ k, heavyKind k → recordsOf k u = recordsOf k s

theorem Beside.refl (s : State) : Beside s s := ⟨rfl, fun _ _ => rfl⟩

theorem Beside.trans {s u v : State} (h : Beside s u) (h' : Beside u v) : Beside s v :=
  ⟨h'.core.trans h.core, fun k hk => (h'.records k hk).trans (h.records k hk)⟩

section
variable {k : EventKind} (s : State)

theorem recordsOf_reportSettled (h : .zonesSettled ≠ k) (b : Bool) :
    recordsOf k (reportSettled b s).1 = recordsOf k s := by
  unfold reportSettled; dsimp only; split
  · rfl
  · split
    · exact recordsOf_raise_ne h _ _
    · rfl

theorem recordsOf_search (h : .spliceScheduled ≠ k) (b : Bool) : recordsOf k (search b s).1 = recordsOf k s := by
  unfold search; dsimp only; split
  · exact recordsOf_schedule _ h _
  · rfl
  · split
    · rfl
    · split
      · rfl
      · exact recordsOf_schedule _ h _
  · split <;> rfl
  all_goals rfl

theorem recordsOf_deadlineTest (h : .spliceScheduled ≠ k) : recordsOf k (deadlineTest s).1 = recordsOf k s := by
  unfold deadlineTest; split
  · split
    · exact recordsOf_forceSplice s h
    · rfl
  · rfl

theorem recordsOf_withdrawSplice (hf : .spliceFailed ≠ k) (hl : .rollLow ≠ k) (c : Option FailCause) :
    recordsOf k (withdrawSplice c s).1 = recordsOf k s := by
  unfold withdrawSplice; split
  · refine (recordsOf_testRollLow hl _).trans ?_
    cases c with
    | none => rfl
    | some c => exact recordsOf_announceFailure _ hf _ _
  · rfl

end

/-- A light signal leaves the core. -/
theorem beside_handle {g : Sig} {s : State} (hg : lightSignal g = true) (hl : s.sup.line ≠ .warming)
    (hb : s.former.state ≠ .bridge) : Beside s (handle g s).1 ∧ (handle g s).2 ∈ lightFollows g := by
  cases g
  case warm =>
    have hw : warmTest s = quiet s := if_neg fun h => hl h.1
    simp only [handle, hw]
    exact ⟨.refl s, List.mem_singleton_self _⟩
  case bridge =>
    have hw : bridgeTest s = quiet s := if_neg fun h => hb h.1
    simp only [handle, hw]
    exact ⟨.refl s, List.mem_singleton_self _⟩
  case settled b =>
    refine ⟨⟨core_reportSettled s b, fun k hk => recordsOf_reportSettled s hk.2.2.2.symm b⟩, ?_⟩
    rcases reportSettled_signals b s with h | h <;> simp only [handle, h, lightFollows] <;> simp
  case search b =>
    refine ⟨⟨core_search s b, fun k hk => recordsOf_search s hk.1.symm b⟩, ?_⟩
    show (search b s).2 ∈ lightFollows (.search b)
    unfold search; dsimp only; split
    · simp [lightFollows]
    · simp [lightFollows]
    · split
      · simp [lightFollows, quiet]
      · split <;> simp [lightFollows, quiet]
    · split <;> simp [lightFollows, quiet]
    all_goals simp [lightFollows, quiet]
  case deadline =>
    refine ⟨⟨core_deadlineTest s, fun k hk => recordsOf_deadlineTest s hk.1.symm⟩, ?_⟩
    show (deadlineTest s).2 ∈ [[]]
    unfold deadlineTest; split
    · split <;> simp [quiet]
    · simp [quiet]
  case approach =>
    refine ⟨⟨core_approachTest s, fun k hk => ?_⟩, ?_⟩
    · show recordsOf k (approachTest s).1 = _
      unfold approachTest; split
      · split <;> rfl
      · rfl
    · show (approachTest s).2 ∈ [[]]
      unfold approachTest; split
      · split <;> simp [quiet]
      · simp [quiet]
  case fire =>
    refine ⟨⟨core_fireTest s, fun k hk => ?_⟩, ?_⟩
    · show recordsOf k (fireTest s).1 = _
      unfold fireTest; split
      · split <;> rfl
      · rfl
    · show (fireTest s).2 ∈ [[]]
      unfold fireTest; split
      · split <;> simp [quiet]
      · simp [quiet]
  case dueExpiry =>
    refine ⟨⟨core_dueExpiryTest s, fun k hk => ?_⟩, ?_⟩
    · show recordsOf k (dueExpiryTest s).1 = _
      unfold dueExpiryTest; split
      · rfl
      · split <;> rfl
    · show (dueExpiryTest s).2 ∈ [[], [.bridge]]
      unfold dueExpiryTest; split
      · simp [quiet]
      · split <;> simp [quiet]
  case cancelSplice c =>
    refine ⟨⟨core_withdrawSplice s c, fun k hk => recordsOf_withdrawSplice s hk.2.1.symm hk.2.2.1.symm c⟩, ?_⟩
    show (withdrawSplice c s).2 ∈ [[], [.bridge]]
    unfold withdrawSplice; split <;> simp [quiet]
  all_goals cases hg

/-- A planner that is IDLE with no joint due. -/
def PlannerIdle (p : Planner) : Prop := p.state = .idle ∧ p.jointDue = none

/-- Of light signals an IDLE planner with no joint due takes none. -/
theorem planner_handle_idle {g : Sig} {s : State} (hg : lightSignal g = true) (hp : PlannerIdle s.roll.planner) :
    (handle g s).1.roll.planner = s.roll.planner := by
  cases h : plannerSignal g with
  | false => exact congrArg Prod.fst (aside_handle g s h)
  | true =>
    have ht : tripSignal g = false := by
      cases g
      case trip | rollOut => cases hg
      all_goals rfl
    rw [handle_idlePlanner h ht hp.1 hp.2]
    rfl

/-! ### Signals of which only the like follow -/

/-- A relation of states that signals of a kind keep, with what they rest on: at the head of a list such signals lead to
where every state so related does. -/
theorem Leads.closed {A : Sig → Prop} {P : State → Prop} {R : State → State → Prop} (hrefl : ∀ u, R u u)
    (htrans : ∀ {a b c}, R a b → R b c → R a c)
    (hstep : ∀ g u, A g → P u → R u (handle g u).1 ∧ P (handle g u).1 ∧ flagJoints (handle g u).1 = (handle g u).1 ∧
      (∀ g' ∈ (handle g u).2, A g') ∧ listLoad (handle g u).2 < signalLoad g)
    {Q : State → Prop} {k : Nat} {rest gs : List Sig} {s : State} (hgs : ∀ g ∈ gs, A g) (hs : P s)
    (h : ∀ u, R s u → Leads k rest u Q) : Leads (listLoad gs + k) (gs ++ rest) s Q := by
  induction hn : listLoad gs using Nat.strong_induction_on generalizing gs s with
  | _ n ih =>
    cases gs with
    | nil => exact (h s (hrefl s)).mono (Nat.le_add_left _ _)
    | cons g gs =>
      obtain ⟨hr, hp, hf, hfollow, hload⟩ := hstep g s (hgs g List.mem_cons_self) hs
      have hsum : listLoad (g :: gs) = signalLoad g + listLoad gs := rfl
      have happ : listLoad ((handle g s).2 ++ gs) = listLoad (handle g s).2 + listLoad gs := by simp [listLoad]
      have hnext : Leads (listLoad ((handle g s).2 ++ gs) + k) ((handle g s).2 ++ gs ++ rest) (handle g s).1 Q :=
        ih _ (by omega)
          (fun g' hg' => (List.mem_append.mp hg').elim (hfollow g') fun hm => hgs g' (List.mem_cons_of_mem _ hm)) hp
          (fun u hu => h u (htrans hr hu)) rfl
      rw [List.append_assoc] at hnext
      refine Leads.mono (k := n + k) (j := listLoad ((handle g s).2 ++ gs) + k + 1) (by omega) (Leads.take ?_)
      rwa [hf]

/-- Light signals at the head of a list lead to where every state does that has the same core. -/
theorem Leads.light {Q : State → Prop} {k : Nat} {rest : List Sig} {gs : List Sig} {s : State}
    (hgs : ∀ g ∈ gs, lightSignal g = true) (hl : s.sup.line ≠ .warming) (hb : s.former.state ≠ .bridge)
    (hp : inPleatedStep s.former = false)
    (h : ∀ u, Beside s u → (PlannerIdle s.roll.planner → u.roll.planner = s.roll.planner) → Leads k rest u Q) :
    Leads (listLoad gs + k) (gs ++ rest) s Q := by
  refine Leads.closed (A := fun g => lightSignal g = true)
    (P := fun u => u.sup.line ≠ .warming ∧ u.former.state ≠ .bridge ∧ inPleatedStep u.former = false)
    (R := fun u v => Beside u v ∧ (PlannerIdle u.roll.planner → v.roll.planner = u.roll.planner))
    (fun u => ⟨.refl u, fun _ => rfl⟩) ?_ ?_ hgs ⟨hl, hb, hp⟩ fun u hu => h u hu.1 hu.2
  · rintro a b c ⟨hab, hpab⟩ ⟨hbc, hpbc⟩
    exact ⟨hab.trans hbc, fun hi => (hpbc (hpab hi ▸ hi)).trans (hpab hi)⟩
  · rintro g u hg ⟨hul, hub, hup⟩
    obtain ⟨hbeside, hfollows⟩ := beside_handle hg hul hub
    obtain ⟨hlight, hload⟩ := lightFollows_light hfollows
    have hline := core_line hbeside.core
    have hformer := core_former hbeside.core
    rw [← hline] at hul
    rw [← hformer] at hub hup
    exact ⟨⟨hbeside, planner_handle_idle hg⟩, ⟨hul, hub, hup⟩, flagJoints_idle (Or.inl hup), hlight, hload⟩

/-! ### The settled condition -/

/-- What the examination of the settled condition makes of a state: the condition and ZONES_SETTLED (R120). -/
def Calm (s u : State) : Prop :=
  (∃ b r, u = { s with settledReported := b, router := r }) ∧ ∀ k, k ≠ .zonesSettled → recordsOf k u = recordsOf k s

theorem Calm.refl (s : State) : Calm s s := ⟨⟨s.settledReported, s.router, rfl⟩, fun _ _ => rfl⟩

theorem Calm.trans {s u v : State} (h : Calm s u) (h' : Calm u v) : Calm s v := by
  obtain ⟨⟨b, r, rfl⟩, hr⟩ := h
  obtain ⟨⟨b', r', rfl⟩, hr'⟩ := h'
  exact ⟨⟨b', r', rfl⟩, fun k hk => (hr' k hk).trans (hr k hk)⟩

/-- The signals that examine the settled condition, and those it tells. -/
def calmSignal : Sig → Bool
  | .settled _ | .warm | .bridge => true
  | _ => false

theorem calm_reportSettled (b : Bool) (s : State) : Calm s (reportSettled b s).1 := by
  refine ⟨?_, fun k hk => recordsOf_reportSettled s hk.symm b⟩
  unfold reportSettled; dsimp only; split
  · exact ⟨_, _, rfl⟩
  · split <;> exact ⟨_, _, rfl⟩

theorem lightSignal_of_calm {g : Sig} (h : calmSignal g = true) : lightSignal g = true := by
  cases g
  case settled | warm | bridge => rfl
  all_goals cases h

theorem calm_handle {g : Sig} {s : State} (hg : calmSignal g = true) (hl : s.sup.line ≠ .warming)
    (hb : s.former.state ≠ .bridge) : Calm s (handle g s).1 := by
  cases g
  case settled b => exact calm_reportSettled b s
  case warm =>
    have hw : handle .warm s = quiet s := if_neg fun h => hl h.1
    rw [hw]
    exact .refl s
  case bridge =>
    have hw : handle .bridge s = quiet s := if_neg fun h => hb h.1
    rw [hw]
    exact .refl s
  all_goals cases hg

theorem lightFollows_calm {g : Sig} {gs : List Sig} (hg : calmSignal g = true) (h : gs ∈ lightFollows g) :
    ∀ g' ∈ gs, calmSignal g' = true := by
  cases g
  case settled b =>
    simp only [lightFollows, List.mem_cons, List.not_mem_nil, or_false] at h
    rcases h with rfl | rfl <;> simp [calmSignal]
  case warm | bridge =>
    obtain rfl : gs = [] := List.mem_singleton.mp h
    simp
  all_goals cases hg

/-- At the head of a list they lead to where every state does in which only the settled condition may differ. -/
theorem Leads.calm {Q : State → Prop} {k : Nat} {rest : List Sig} {gs : List Sig} {s : State}
    (hgs : ∀ g ∈ gs, calmSignal g = true) (hl : s.sup.line ≠ .warming) (hb : s.former.state ≠ .bridge)
    (hj : JointFlags s) (h : ∀ u, Calm s u → Leads k rest u Q) : Leads (listLoad gs + k) (gs ++ rest) s Q := by
  have hkeep : ∀ {u v : State}, Calm u v → u.sup.line ≠ .warming ∧ u.former.state ≠ .bridge ∧ JointFlags u →
      v.sup.line ≠ .warming ∧ v.former.state ≠ .bridge ∧ JointFlags v := by
    rintro u v ⟨⟨b, r, rfl⟩, -⟩ h
    exact h
  refine Leads.closed (A := fun g => calmSignal g = true)
    (P := fun u => u.sup.line ≠ .warming ∧ u.former.state ≠ .bridge ∧ JointFlags u) Calm.refl Calm.trans ?_ hgs
    ⟨hl, hb, hj⟩ h
  rintro g u hg ⟨hul, hub, huj⟩
  obtain ⟨-, hfollows⟩ := beside_handle (lightSignal_of_calm hg) hul hub
  have hc := calm_handle hg hul hub
  have hnext := hkeep hc ⟨hul, hub, huj⟩
  exact ⟨hc, hnext, flagJoints_self hnext.2.2, fun g' => lightFollows_calm hg hfollows g', (lightFollows_light hfollows).2⟩

end Sys2Proof.Machine
end

section
/-! SUPPORT. The operations on the way from a boundary to a panel, each written out as what it leaves of the state: the
targets handed, a line state entered, the hold causes set, the order taken, the panel begun. -/

namespace Sys2Proof.Machine

open Sys2Proof.Safety

section
variable (s : State)

/-! ### The line -/

/-- Handing targets changes zones and monitors only. -/
theorem retarget_eq : ∃ zs ms, retarget s = { s with zones := zs, monitor := { s.monitor with zones := ms } } := by
  have hand : ∀ t z u, (∃ zs ms, u = { s with zones := zs, monitor := { s.monitor with zones := ms } }) →
      ∃ zs ms, handTarget t z u = { s with zones := zs, monitor := { s.monitor with zones := ms } } := by
    rintro t z u ⟨zs, ms, rfl⟩
    unfold handTarget
    split
    · exact ⟨zs, ms, rfl⟩
    · exact ⟨_, _, rfl⟩
  unfold retarget
  rw [zonesInOrder]
  simp only [List.foldl_cons, List.foldl_nil]
  exact hand _ _ _ (hand _ _ _ (hand _ _ _ (hand _ _ _ ⟨s.zones, s.monitor.zones, rfl⟩)))

/-- A line state entered: LINE_STATE raised, the zones handed their targets (R134, R175). -/
theorem setLine_eq (l : LineState) : ∃ zs ms, setLine l s = { s with
    sup := { s.sup with prev := s.sup.line, line := l }
    zones := zs
    monitor := { s.monitor with zones := ms }
    router := s.router.map (notePort .lineState
      [BitVec.ofNat 8 (lineStateCode l), BitVec.ofNat 8 (lineStateCode s.sup.line),
        BitVec.ofNat 8 (if l = .holding then causesCode s.sup.causes else 0)]) } := by
  obtain ⟨zs, ms, h⟩ := retarget_eq (raise .lineState
    (byte1 (lineStateCode l) ++ byte1 (lineStateCode s.sup.line) ++
      byte1 (if l = .holding then causesCode s.sup.causes else 0))
    (s.onSup fun v => { v with prev := v.line, line := l }))
  refine ⟨zs, ms, h.trans ?_⟩
  simp only [byte1_eq]
  rfl

/-- The hold causes set: HOLD is raised at a change in RUNNING and HOLDING (R180). -/
theorem setCauses_eq (c : HoldCauses) : setCauses c s = { s with
    sup := { s.sup with causes := c }
    router := if c ≠ s.sup.causes ∧ (s.sup.line = .running ∨ s.sup.line = .holding) then
      s.router.map (notePort .hold [BitVec.ofNat 8 (causesCode c)]) else s.router } := by
  unfold setCauses
  split
  · next h => subst h; simp
  · next h =>
    simp only [byte1_eq]
    split
    · next hl => rw [if_pos ⟨h, hl⟩]; rfl
    · next hl => rw [if_neg fun hn => hl hn.2]; rfl

theorem withdrawCauses_none (h1 : s.sup.causes.starved = false) (h2 : s.sup.causes.trackFull = false) :
    withdrawCauses s = s := by
  have hc : { s.sup.causes with starved := false, trackFull := false } = s.sup.causes := by
    cases hs : s.sup.causes with
    | mk a b c => simp_all
  unfold withdrawCauses setCauses
  rw [if_pos hc]

/-! ### The panel -/

theorem activate_eq {o : Order} {os : List Order} (h : s.queue.orders = o :: os) :
    ∃ r, activate s = { s with queue := { s.queue with active := true }, router := r } := by
  unfold activate
  split
  · next ha =>
    have hact : s.queue.active = true := by simpa [h] using ha
    refine ⟨s.router, ?_⟩
    rw [← hact]
  · unfold queuedFell
    split
    · exact ⟨_, rfl⟩
    · exact ⟨s.router, rfl⟩

theorem cutSeesStart_eq : ∃ c, cutSeesStart s = { s with roll := { s.roll with cut := c } } := by
  unfold cutSeesStart
  split
  · exact ⟨s.roll.cut, rfl⟩
  · split
    · split
      · exact ⟨s.roll.cut, rfl⟩
      · dsimp only
        split
        · exact ⟨_, rfl⟩
        · exact ⟨s.roll.cut, rfl⟩
    · exact ⟨s.roll.cut, rfl⟩

/-- A panel of the order at the head begun (R64). -/
theorem startPanel_eq {o : Order} {os : List Order} (h : s.queue.orders = o :: os)
    (h1 : s.sup.causes.starved = false) (h2 : s.sup.causes.trackFull = false) :
    ∃ r c, startPanel s = { s with
      router := r
      queue := { s.queue with active := true }
      former := leadEntered s
      tracker := panelBegun o s.tracker
      roll := { s.roll with cut := c } } := by
  obtain ⟨r, hact⟩ := activate_eq s h
  have hhead : headOrder (activate s) = some o := by rw [hact]; simp [headOrder, h]
  unfold startPanel
  rw [withdrawCauses_none s h1 h2]
  dsimp only
  rw [hhead]
  dsimp only
  obtain ⟨c, hcut⟩ := cutSeesStart_eq
    (writeMark .panelStart (some (activate s).tracker.nextPanel) (beginPanel o (activate s)))
  rw [hcut, headPattern_eq, hact]
  exact ⟨r, c, rfl⟩

end

end Sys2Proof.Machine
end

section
/-! SUPPORT. Where a boundary with work leads: a panel begun on a RUNNING line (R62, R64), and the line that waited
HOLDING for it brought to RUNNING (R63, R180). -/

namespace Sys2Proof.Machine

open Sys2Proof.Safety

/-- Two orders that differ in the frozen flag at most. -/
theorem fields_thawed {o o' : Order} (h : thawed o' = thawed o) :
    o'.id = o.id ∧ o'.pattern = o.pattern ∧ o'.recipe = o.recipe := by
  rw [thawed, thawed, Order.mk.injEq] at h
  obtain ⟨hid, hpattern, hrecipe, -⟩ := h
  exact ⟨hid, hpattern, hrecipe⟩

theorem patternAhead_core {s u : State} (h : core u = core s) : patternAhead u = patternAhead s := by
  have ho := core_orders h
  have hslot : ∀ i, slotAt u i = slotAt s i := fun i => by rw [slotAt, slotAt, core_store h]
  unfold patternAhead
  cases hu : u.queue.orders with
  | nil =>
    have hs : s.queue.orders = [] := by simpa [hu] using ho.symm
    rw [hs]
  | cons a as =>
    cases hs : s.queue.orders with
    | nil => simp [hu, hs] at ho
    | cons b bs =>
      rw [hu, hs, List.map_cons, List.map_cons, List.cons.injEq] at ho
      show slotAt u a.pattern = slotAt s b.pattern
      rw [(fields_thawed ho.1).2.1, hslot]

/-- The order at the head, but for its frozen flag. -/
theorem orders_core {s u : State} (h : core u = core s) {o : Order} {os : List Order} (ho : s.queue.orders = o :: os) :
    ∃ o' os', u.queue.orders = o' :: os' ∧ thawed o' = thawed o := by
  have hm := core_orders h
  rw [ho, List.map_cons] at hm
  cases hu : u.queue.orders with
  | nil => simp [hu] at hm
  | cons o' os' =>
    rw [hu, List.map_cons, List.cons.injEq] at hm
    exact ⟨o', os', rfl, hm.1⟩

/-- A panel's record and mark do not show the frozen flag. -/
theorem panelBegun_thawed {o o' : Order} (h : thawed o' = thawed o) (t : Tracker) : panelBegun o' t = panelBegun o t := by
  obtain ⟨hid, hpattern, hrecipe⟩ := fields_thawed h
  rw [panelBegun, panelBegun, hid, hpattern, hrecipe]

section
variable {Q : State → Prop} {k : Nat} {rest : List Sig} {s : State} {o : Order} {os : List Order}

section
variable (hw : workInFormation s.former = false) (ho : s.queue.orders = o :: os)
  (hr : s.dose.tunnelRecipe = some o.recipe) (h32 : s.tracker.table.length < 32) (h60 : s.tracker.map.length ≤ 60)
include hw ho hr h32 h60

/-- The boundary test with work and room (R62). -/
theorem boundaryTest_room :
    boundaryTest s =
      if s.sup.line = .running then (startPanel s, [.search true, .former]) else (restIdle s, [.causes]) := by
  have hroom : ¬(freeRecords s = 0 ∨ freeMarks s < 4) := by unfold freeRecords freeMarks; omega
  unfold boundaryTest headOrder
  rw [ho]
  simp only [List.head?_cons]
  rw [if_neg (by simp [hw]), if_neg (by simp [hr]), if_neg hroom]

/-- On a RUNNING line a panel is begun, and its lead runs on. -/
theorem leads_startPanel (hl : s.sup.line = .running) (h1 : s.sup.causes.starved = false)
    (h2 : s.sup.causes.trackFull = false) (hrun : lengthRuns (countOf s.former (patternAhead s).lead))
    (h : ∀ t, t.former = leadEntered s → t.tracker = panelBegun o s.tracker → t.queue.active = true → t.dose = s.dose →
      motion t = motion s → t.sup.causes = s.sup.causes →
      (PlannerIdle s.roll.planner → t.roll.planner = s.roll.planner) → Leads k rest t Q) :
    Leads (k + 5) (.boundary :: rest) s Q := by
  obtain ⟨r, c, hp⟩ := startPanel_eq s ho h1 h2
  have hstate : (startPanel s).former.state = .lead := by rw [hp]; rfl
  have hflag : flagJoints (startPanel s) = startPanel s :=
    flagJoints_idle (Or.inl (by rw [inPleatedStep, hstate]))
  refine Leads.take (k := k + 4) ?_
  rw [show handle .boundary s = _ from boundaryTest_room hw ho hr h32 h60, if_pos hl, hflag]
  refine Leads.mono (j := listLoad [.search true] + (k + 1)) (by simp [listLoad, signalLoad]; omega)
    (Leads.light (gs := [.search true]) (rest := .former :: rest) (by simp [lightSignal]) (by rw [hp]; simp [hl])
      (by rw [hstate]; decide) (by rw [inPleatedStep, hstate]) fun u hu hpu => ?_)
  have hformer : u.former = leadEntered s := (core_former hu.core).trans (by rw [hp])
  have htracker : u.tracker = panelBegun o s.tracker := (core_tracker hu.core).trans (by rw [hp])
  have hrests : FormerRests u := by
    unfold FormerRests
    rw [hformer, htracker]
    exact lengthRuns_ahead _ hrun
  refine Leads.skip (formerTest_rests hrests) (flagJoints_idle (Or.inl (by rw [hformer]; rfl))) (h u hformer htracker ?_ ?_ ?_ ?_ ?_)
  · exact (core_active hu.core).trans (by rw [hp])
  · exact (core_dose hu.core).trans (by rw [hp])
  · exact (core_motion hu.core).trans (by rw [hp]; rfl)
  · exact (core_causes hu.core).trans (by rw [hp])
  · intro hidle
    have hpl : (startPanel s).roll.planner = s.roll.planner := by rw [hp]
    exact (hpu (hpl ▸ hidle)).trans hpl

end

/-! ### Work for a former that waits -/

theorem restIdle_eq (s : State) : ∃ r, restIdle s = { s with
    former := { s.former with state := .idle, hold := .none, resume := none, bladeSide := false }
    sup := { s.sup with causes := { s.sup.causes with starved := false, trackFull := false } }
    router := r } := by
  unfold restIdle withdrawCauses
  rw [setCauses_eq]
  exact ⟨_, rfl⟩

theorem enterRunning_eq {s : State} (h : noCauses s.sup.causes = true) :
    enterLine .running s = (setLine .running s, [.settled false, .formerRun]) := by
  unfold enterLine
  dsimp only
  rw [if_pos h]

/-- A line HOLDING with no cause left and the hood DOWN runs again (R180). -/
theorem causesChanged_run {s : State} (hl : s.sup.line = .holding) (hc : s.sup.causes = ⟨false, false, false⟩)
    (hh : s.sup.hood = .down) :
    causesChanged s =
      (setLine .running (s.onSup fun v => { v with hoodDelayTimer := none }), [.settled false, .formerRun]) := by
  have hnone : noCauses s.sup.causes = true := by rw [hc]; rfl
  unfold causesChanged
  rw [if_neg (by simp [hl]), if_pos ⟨hl, hnone⟩, if_pos hh]
  exact enterRunning_eq hnone

/-- The former waits HELD for want of work on a line that holds for nothing else, the hood DOWN. -/
structure Waiting (s : State) : Prop where
  state : s.former.state = .held
  hold : s.former.hold = .starved
  resume : s.former.resume = none
  panel : s.former.panel = none
  line : s.sup.line = .holding
  hood : s.sup.hood = .down
  causes : s.sup.causes = ⟨true, false, false⟩

theorem Waiting.of_core {s u : State} (h : core u = core s) (w : Waiting s) : Waiting u :=
  ⟨by rw [core_former h]; exact w.state, by rw [core_former h]; exact w.hold, by rw [core_former h]; exact w.resume,
    by rw [core_former h]; exact w.panel, (core_line h).trans w.line, (core_hood h).trans w.hood,
    (core_causes h).trans w.causes⟩

theorem Waiting.apart {s : State} (w : Waiting s) :
    workInFormation s.former = false ∧ inPleatedStep s.former = false ∧ s.former.state ≠ .bridge := by
  simp [workInFormation, bridgeRunning, inPleatedStep, w.state, w.resume, w.panel]

/-- A panel begun for an order that a waiting former was given. -/
def Begun (o : Order) (s t : State) : Prop :=
  t.sup.line = .running ∧ t.sup.prev = .holding ∧ t.sup.causes = ⟨false, false, false⟩ ∧ t.queue.active = true ∧
    t.tracker = panelBegun o s.tracker ∧ t.former = { leadEntered s with bladeSide := false }

/-- The waiting former at rest on the line that runs again for it. -/
structure Ready (o : Order) (s u : State) : Prop where
  former : u.former = { s.former with state := .idle, hold := .none, resume := none, bladeSide := false }
  tracker : u.tracker = s.tracker
  dose : u.dose = s.dose
  pattern : patternAhead u = patternAhead s
  orders : ∃ o' os, u.queue.orders = o' :: os ∧ thawed o' = thawed o
  line : u.sup.line = .running
  prev : u.sup.prev = .holding
  causes : u.sup.causes = ⟨false, false, false⟩

theorem Ready.of_core {o : Order} {s u t : State} (h : core t = core u) (r : Ready o s u) : Ready o s t := by
  obtain ⟨o', os, ho, hid⟩ := r.orders
  obtain ⟨o'', os', ho', hid'⟩ := orders_core h ho
  exact ⟨(core_former h).trans r.former, (core_tracker h).trans r.tracker, (core_dose h).trans r.dose,
    (patternAhead_core h).trans r.pattern, ⟨o'', os', ho', hid'.trans hid⟩, (core_line h).trans r.line,
    (core_prev h).trans r.prev, (core_causes h).trans r.causes⟩

section
variable (hr : s.dose.tunnelRecipe = some o.recipe) (h32 : s.tracker.table.length < 32)
  (h60 : s.tracker.map.length ≤ 60) (hrun : lengthRuns (countOf s.former (patternAhead s).lead))
include hr h32 h60 hrun

/-- The line told the former that it runs: the boundary test begins the panel. -/
theorem leads_formerRun {u : State} (h : Ready o s u) (hp : s.former.panel = none) :
    Leads 6 [.formerRun] u (Begun o s) := by
  obtain ⟨o', os, ho, hid⟩ := h.orders
  have hstate : u.former.state = .idle := by rw [h.former]
  have hrunTest : handle .formerRun u = (u, [.boundary]) := by
    show formerRun u = _
    unfold formerRun
    rw [if_neg (by simp [h.line]), hstate]
  refine Leads.take ?_
  rw [hrunTest, flagJoints_idle (Or.inl (by rw [inPleatedStep, hstate]))]
  refine leads_startPanel (k := 0) ?_ ho ?_ ?_ ?_ h.line ?_ ?_ ?_ fun t htf htt hta _ htm htc _ => Leads.done ?_
  · rw [h.former]; simp [workInFormation, bridgeRunning, hp]
  · rw [h.dose, (fields_thawed hid).2.2]; exact hr
  · rw [h.tracker]; exact h32
  · rw [h.tracker]; exact h60
  · rw [h.causes]
  · rw [h.causes]
  · rw [h.pattern, h.former]; exact hrun
  · refine ⟨?_, ?_, htc.trans h.causes, hta, ?_, ?_⟩
    · exact (congrArg (fun m => m.1.line) htm).trans h.line
    · exact (congrArg (fun m => m.1.prev) htm).trans h.prev
    · rw [htt, h.tracker, panelBegun_thawed hid]
    · rw [htf, leadEntered, leadEntered, h.former, h.tracker, h.pattern]
      rfl

/-- Work for a waiting former: it leaves its hold, the line runs again, and the panel begins (R63, R180). -/
theorem leads_space (w : Waiting s) (ho : ∃ o' os, s.queue.orders = o' :: os ∧ thawed o' = thawed o) :
    Leads 12 [.space] s (Begun o s) := by
  obtain ⟨o', os, ho, hid⟩ := ho
  obtain ⟨hwork, hpleat, -⟩ := w.apart
  have hspace : handle .space s = (s, [.boundary]) := if_pos ⟨w.state, Or.inl w.hold⟩
  have hrest := boundaryTest_room hwork ho (by rw [(fields_thawed hid).2.2]; exact hr) h32 h60
  rw [if_neg (by simp [w.line])] at hrest
  obtain ⟨r, hidle⟩ := restIdle_eq s
  have hcauses : { s.sup.causes with starved := false, trackFull := false } = (⟨false, false, false⟩ : HoldCauses) := by
    rw [w.causes]
  rw [hcauses] at hidle
  have hruns := causesChanged_run (s := restIdle s) (by rw [hidle]; exact w.line) (by rw [hidle])
    (by rw [hidle]; exact w.hood)
  obtain ⟨zs, ms, hset⟩ := setLine_eq ((restIdle s).onSup fun v => { v with hoodDelayTimer := none }) .running
  have hready : Ready o s (setLine .running ((restIdle s).onSup fun v => { v with hoodDelayTimer := none })) := by
    rw [hset, hidle]
    exact ⟨rfl, rfl, rfl, rfl, ⟨o', os, ho, hid⟩, rfl, w.line, rfl⟩
  have hflag : ∀ {u : State}, u.former.state = .idle → flagJoints u = u := fun h =>
    flagJoints_idle (Or.inl (by rw [inPleatedStep, h]))
  refine Leads.take (k := 11) ?_
  rw [hspace, flagJoints_idle (Or.inl hpleat)]
  refine Leads.take (k := 10) ?_
  rw [show handle .boundary s = _ from hrest, hflag (by rw [hidle])]
  refine Leads.take (k := 9) ?_
  rw [show handle .causes (restIdle s) = _ from hruns, hflag (by rw [hready.former])]
  refine Leads.light (gs := [.settled false]) (rest := [.formerRun]) (k := 6) (by simp [lightSignal])
    (by rw [hready.line]; decide) (by simp [hready.former]) (by rw [hready.former]; rfl) fun u hu _ => ?_
  exact leads_formerRun hr h32 h60 hrun (hready.of_core hu.core) w.panel

end

end

end Sys2Proof.Machine
end

section
/-! SUPPORT. What ORDER_QUEUE makes of an order it takes (R44, R45, R63). -/

namespace Sys2Proof.Machine

open Sys2Proof.Safety

/-! ### A search and the ports -/

theorem approachedBy_ports {p : Pos} {s u : State} {x : Three PortState} (h : u = { s with ports := x }) :
    approachedBy p u = { approachedBy p s with ports := x } := by
  subst h
  unfold approachedBy; dsimp only; split <;> rfl

theorem deadlineMet_ports {r : RollStatus} {s u : State} {x : Three PortState} (h : u = { s with ports := x }) :
    deadlineMet r u = { deadlineMet r s with ports := x } := by
  subst h
  unfold deadlineMet; dsimp only; split <;> rfl

theorem searchResult_ports {r : RollStatus} {s : State} (x : Three PortState) (h : s.roll.planner.status = some r) :
    searchResult { s with ports := x } r = searchResult s r := by
  rw [← searchFinds_eq s h, ← searchFinds_eq { s with ports := x } h]
  rfl

/-- A search does not look at the ports. -/
theorem searched_ports (s : State) (x : Three PortState) :
    searched { s with ports := x } = { searched s with ports := x } := by
  unfold searched
  dsimp only
  cases hr : s.roll.planner.status with
  | none => rfl
  | some r =>
    dsimp only
    rw [searchResult_ports x hr]
    split
    · split
      · exact approachedBy_ports rfl
      · exact deadlineMet_ports rfl
    · split
      · split
        · split <;> rfl
        · exact deadlineMet_ports rfl
      · rfl

/-- After a search the ports may be answered as if they had been those of the answer. -/
theorem searched_answered (s : State) (x y : Three PortState) :
    { searched { s with ports := x } with ports := y } = { searched s with ports := y } := by rw [searched_ports]

/-! ### What a search leaves -/

theorem core_approachedBy (p : Pos) (s : State) : core (approachedBy p s) = core s := by
  unfold approachedBy; split <;> rfl

theorem core_scheduledOn (c : Candidate) (s : State) : core (scheduledOn c s) = core s := by
  rw [← schedule_eq]; exact core_schedule s c

theorem core_deadlineMet (r : RollStatus) (s : State) : core (deadlineMet r s) = core s := by
  unfold deadlineMet; split
  · exact core_forceSplice s
  · rfl

/-- A search leaves the core. -/
theorem core_searched (s : State) : core (searched s) = core s := by
  unfold searched
  dsimp only
  split
  · rfl
  · split
    · split
      · exact (core_approachedBy _ _).trans (core_scheduledOn _ _)
      · exact core_deadlineMet _ _
    · split
      · split
        · split
          · rfl
          · exact core_scheduledOn _ _
        · exact (core_deadlineMet _ _).trans (core_unschedule s)
      · rfl

theorem jointFlags_searched {s : State} (h : JointFlags s) : JointFlags (searched s) :=
  jointFlags_searchState h (core_former (core_searched s)) (core_tracker (core_searched s))

/-- The search that a change of the queue asks for, with all that follows, from a former that does not wait (R160). -/
theorem settle_search_space {s : State} (hj : JointFlags s) (hh : heldAtBoundary s.former = false)
    (hk : s.roll.planner.state = .planning ∨ s.roll.planner.state = .scheduled → s.roll.planner.status ≠ none)
    (hb : s.former.state ≠ .bridge ∨ s.roll.planner.state ≠ .scheduled) :
    settle (s, [.search false, .space]) = searched s := by
  have hspace : Settles 1 [.space] (searched s) (searched s) :=
    Settles.skip (handle_space_quiet (by rw [core_former (core_searched s)]; exact hh))
      (flagJoints_self (jointFlags_searched hj)) (Settles.done _)
  refine Settles.settle (k := 4) ?_ (by decide)
  rw [flagJoints_self hj]
  by_cases hr : s.roll.planner.status = none
  · have hs : searched s = s := by unfold searched; dsimp only; rw [hr]
    rw [hs] at hspace ⊢
    refine Settles.skip (k := 3) ?_ (flagJoints_self hj) fun n hn => hspace n (by omega)
    show search false s = quiet s
    unfold search
    cases hp : s.roll.planner.state with
    | planning => exact absurd hr (hk (Or.inl hp))
    | scheduled => exact absurd hr (hk (Or.inr hp))
    | idle | approach | fired => rfl
  · exact settles_search hj hb hr hspace

/-! ### The block -/

/-- A state with an order joined to its queue (R44, R45). -/
def joined (o : Order) (s : State) : State :=
  { s with
    queue := { s.queue with orders := s.queue.orders ++ [o], nextId := idAfter o.id }
    store := { s.store with
      slots := s.store.slots.set o.pattern.val { slotAt s o.pattern with refs := (slotAt s o.pattern).refs + 1 } } }

section
variable {p : Port} {s : State} {a r c0 c1 : Byte}

theorem orderQueue_badValue (h : 15 < a.toNat ∨ 3 < r.toNat) :
    orderQueue p [a, r, c0, c1] s = refuse .badValue s := if_pos h

theorem fin4_eq {n : Nat} {j : Fin 4} (h : n = j.val) : fin4 n = j := by
  subst h
  rw [fin4, dif_pos j.isLt]

section
variable {i : Fin 16} {j : Fin 4} (hi : a.toNat = i.val) (hj : r.toNat = j.val)
include hi hj

/-- ORDER_QUEUE with its numbers in range. -/
theorem orderQueue_inRange :
    orderQueue p [a, r, c0, c1] s =
      if 8 ≤ s.queue.orders.length then refuse .full s
      else if (slotAt s i).state ≠ .valid then refuse .notFound s
      else if (s.dose.recipes.get j).valid = false then refuse .notFound s
      else
        let o : Order := ⟨freshId s.queue.orders 8 s.queue.nextId, i, j, c0.toNat + 256 * c1.toNat, 0, false, false⟩
        okWith [BitVec.ofNat 8 o.id, BitVec.ofNat 8 (s.queue.orders.length + 1)]
          (settle (joined o s, [.search false, .space])) := by
  have hi16 := i.isLt
  have hj4 := j.isLt
  have hr : ¬(15 < u8 [a, r, c0, c1] 0 ∨ 3 < u8 [a, r, c0, c1] 1) := by
    show ¬(15 < a.toNat ∨ 3 < r.toNat)
    omega
  have hf : fin16 (u8 [a, r, c0, c1] 0) = i := fin16_eq hi.symm
  have hf' : fin4 (u8 [a, r, c0, c1] 1) = j := fin4_eq hj
  unfold orderQueue
  rw [if_neg hr, hf, hf']
  simp only [newOrder, hf, hf', u16_bytes, addReference, onSlot_eq_set, byte1_eq]
  simp [joined, State.onQueue, State.onStore, slotAt]

theorem orderQueue_full (h : 8 ≤ s.queue.orders.length) :
    orderQueue p [a, r, c0, c1] s = refuse .full s := (orderQueue_inRange hi hj).trans (if_pos h)

theorem orderQueue_notFound (h8 : s.queue.orders.length < 8)
    (h : (slotAt s i).state ≠ .valid ∨ (s.dose.recipes.get j).valid = false) :
    orderQueue p [a, r, c0, c1] s = refuse .notFound s := by
  rw [orderQueue_inRange hi hj, if_neg (Nat.not_le.mpr h8)]
  split
  · rfl
  · next hs => exact if_pos (h.resolve_left hs)

theorem orderQueue_taken (h8 : s.queue.orders.length < 8) (hv : (slotAt s i).state = .valid)
    (hr : (s.dose.recipes.get j).valid = true) {id : Nat} (hid : freshId s.queue.orders 8 s.queue.nextId = id) :
    orderQueue p [a, r, c0, c1] s =
      okWith [BitVec.ofNat 8 id, BitVec.ofNat 8 (s.queue.orders.length + 1)]
        (settle (joined ⟨id, i, j, c0.toNat + 256 * c1.toNat, 0, false, false⟩ s, [.search false, .space])) := by
  rw [orderQueue_inRange hi hj, if_neg (Nat.not_le.mpr h8), if_neg (not_not.mpr hv), if_neg (by simp [hr]), hid]

end

end

/-- A waiting former given its first order forms its first panel (R63). -/
theorem settle_joined_waiting {s : State} {o : Order} (w : Waiting s) (ho : s.queue.orders = [])
    (hr : s.dose.tunnelRecipe = some o.recipe) (h32 : s.tracker.table.length < 32) (h60 : s.tracker.map.length ≤ 60)
    (hrun : lengthRuns (countOf s.former (patternAhead (joined o s)).lead)) :
    Begun o (joined o s) (settle (joined o s, [.search false, .space])) := by
  have hw : Waiting (joined o s) := ⟨w.state, w.hold, w.resume, w.panel, w.line, w.hood, w.causes⟩
  have hq : (joined o s).queue.orders = [o] := by simp [joined, ho]
  obtain ⟨-, hpleat, hbridge⟩ := hw.apart
  refine Leads.settle (k := 15) ?_ (by decide)
  rw [flagJoints_idle (Or.inl hpleat)]
  refine Leads.light (gs := [.search false]) (rest := [.space]) (k := 12) (by simp [lightSignal])
    (by rw [hw.line]; decide) hbridge hpleat fun u hu _ => ?_
  have hcore := hu.core
  obtain ⟨o', os', ho', hid⟩ := orders_core hcore hq
  refine Leads.weaken (Q := Begun o u) (fun t ht => ?_) (leads_space ?_ ?_ ?_ ?_ (hw.of_core hcore) ⟨o', os', ho', hid⟩)
  · unfold Begun leadEntered at ht ⊢
    rwa [core_tracker hcore, core_former hcore, patternAhead_core hcore] at ht
  · rw [core_dose hcore]; exact hr
  · rw [core_tracker hcore]; exact h32
  · rw [core_tracker hcore]; exact h60
  · rw [core_former hcore, patternAhead_core hcore]; exact hrun

end Sys2Proof.Machine

namespace Sys2Proof.Proofs

open Sys2Proof.Machine Sys2Proof.Safety

/-- Settles O21: the checks are the block's cases, the id is the first candidate that is free; what follows is the search
alone for a former that does not wait, and the way to the first panel for one that does. -/
theorem orderQueue : Obligations.OrderQueue := by
  intro p r c0 c1 extra s
  dsimp only
  have hexec := exec_orderQueue (f := ⟨.pattern, [p, r, c0, c1], extra⟩) s (by simp) rfl rfl
  refine ⟨fun hbad => ?badValue, fun i j hi hj => ⟨fun h8 => ?full, fun h8 hno => ?notFound, fun h8 hv hrv hord => ?taken⟩⟩
  case badValue => exact hexec.trans (congrArg _ (answeredBy_refused (orderQueue_badValue hbad)))
  case full => exact hexec.trans (congrArg _ (answeredBy_refused (orderQueue_full hi hj h8)))
  case notFound => exact hexec.trans (congrArg _ (answeredBy_refused (orderQueue_notFound hi hj h8 hno)))
  case taken =>
    obtain ⟨-, -, hnext, -, -⟩ := hord
    obtain ⟨k, hk, hid, hbefore, hfree⟩ := freshId_free h8 hnext
    obtain ⟨-, hmax⟩ := idCandidate_range hnext k
    have hafter : idAfter (idCandidate s.queue.nextId k) =
        if idCandidate s.queue.nextId k = 255 then 1 else idCandidate s.queue.nextId k + 1 := by
      unfold idAfter; split <;> split <;> omega
    have hblock := orderQueue_taken (p := .pattern) (s := received 0x24 ⟨.pattern, [p, r, c0, c1], extra⟩ s) (c0 := c0)
      (c1 := c1) hi hj h8 hv hrv hid
    refine ⟨k, _, _, hk, rfl, hfree, hbefore, hexec.trans (congrArg _ (answeredBy_eq hblock (settle_ports _))), rfl,
      (settle_nextId _).trans hafter, fun hh hjf _ hk hb => ?_, fun h1 h2 h3 h4 ho h5 h6 h7 hr h32 h60 _ hrun => ?_⟩
    · rw [settle_nextId, settle_search_space (s := joined _ (received 0x24 _ s)) hjf hh hk hb]
      exact searched_answered (joined ⟨idCandidate s.queue.nextId k, i, j, c0.toNat + 256 * c1.toNat, 0, false, false⟩ s)
        (received 0x24 ⟨.pattern, [p, r, c0, c1], extra⟩ s).ports _
    · have hbegun := settle_joined_waiting (s := received 0x24 ⟨.pattern, [p, r, c0, c1], extra⟩ s)
        (o := ⟨idCandidate s.queue.nextId k, i, j, c0.toNat + 256 * c1.toNat, 0, false, false⟩)
        ⟨h1, h2, h3, h4, h5, h6, h7⟩ ho hr h32 h60 hrun
      rw [settle_nextId]
      exact hbegun

end Sys2Proof.Proofs
end

section
/-! SUPPORT. The orders of the queue: only the end of a panel, its abort and the planner change them, and only the planner
freezes one (R43, R48, R49, R53). -/

namespace Sys2Proof.Machine

open Sys2Proof.Safety

section
variable (s : State)

/-! ### Operations that leave the orders -/

@[simp] theorem orders_onFormingPanel (f : PanelRec → PanelRec) :
    (onFormingPanel f s).queue.orders = s.queue.orders := by unfold onFormingPanel; split <;> rfl

@[simp] theorem orders_flagJoints : (flagJoints s).queue.orders = s.queue.orders := by
  unfold flagJoints; split <;> simp

@[simp] theorem orders_activate : (activate s).queue.orders = s.queue.orders := by
  cases h : s.queue.orders with
  | nil => simp [activate, h]
  | cons o os =>
    obtain ⟨r, hr⟩ := activate_eq s h
    rw [hr, h]

@[simp] theorem orders_cutSeesEnd : (cutSeesEnd s).queue.orders = s.queue.orders := by
  unfold cutSeesEnd chooseTarget; split
  · split <;> rfl
  · rfl

@[simp] theorem orders_cutSeesStart : (cutSeesStart s).queue.orders = s.queue.orders := by
  obtain ⟨_, h⟩ := cutSeesStart_eq s
  rw [h]

@[simp] theorem orders_closePanel (n : BitVec 16) (a : Bool) : (closePanel n a s).queue.orders = s.queue.orders := by
  simp [closePanel, onPanel, writeMark]

@[simp] theorem orders_queueReport (r : PanelRec) : (queueReport r s).queue.orders = s.queue.orders := by
  unfold queueReport; dsimp only; split <;> rfl

@[simp] theorem orders_passKnife : (passKnife s).1.queue.orders = s.queue.orders := by
  unfold passKnife; split
  · rfl
  · split
    · dsimp only; split
      · unfold panelAtKnife; split
        · rfl
        · split
          · simp
          · rfl
      · rfl
    · rfl

@[simp] theorem orders_markArrivals (g : RollGeometry) (p : Pos) (es : List Joint) :
    (markArrivals g p es s).queue.orders = s.queue.orders := by
  have hone : ∀ u : State, (markJoint u).queue.orders = u.queue.orders := by
    intro u; unfold markJoint; dsimp only; split <;> rfl
  induction es generalizing s with
  | nil => rfl
  | cons e es ih => rw [markArrivals, ih]; split <;> simp [hone]

@[simp] theorem orders_retarget : (retarget s).queue.orders = s.queue.orders := by
  obtain ⟨_, _, h⟩ := retarget_eq s
  rw [h]

@[simp] theorem orders_setLine (l : LineState) : (setLine l s).queue.orders = s.queue.orders := by
  obtain ⟨_, _, h⟩ := setLine_eq s l
  rw [h]

@[simp] theorem orders_setCauses (c : HoldCauses) : (setCauses c s).queue.orders = s.queue.orders := by
  rw [setCauses_eq]

@[simp] theorem orders_withdrawCauses : (withdrawCauses s).queue.orders = s.queue.orders := by simp [withdrawCauses]

@[simp] theorem orders_leaveBoundaryHold : (leaveBoundaryHold s).queue.orders = s.queue.orders := by
  unfold leaveBoundaryHold; split
  · simp
  · rfl

@[simp] theorem orders_commandHood (b : Bool) : (commandHood b s).queue.orders = s.queue.orders := by
  unfold commandHood deriveHood; dsimp only; split <;> rfl

@[simp] theorem orders_enterLine (l : LineState) : (enterLine l s).1.queue.orders = s.queue.orders := by
  cases l <;> simp only [enterLine, quiet]
  case holding => split <;> simp
  all_goals simp

@[simp] theorem orders_recordLate : (recordLate s).queue.orders = s.queue.orders := by
  unfold recordLate; split <;> simp [raise]

@[simp] theorem orders_startStroke : (startStroke s).1.queue.orders = s.queue.orders := by
  unfold startStroke; split
  · rfl
  · unfold enterFeed; dsimp only; split <;> simp [beginLength]

@[simp] theorem orders_enterStep (i : Nat) : (enterStep i s).queue.orders = s.queue.orders := by
  unfold enterStep; split
  · rfl
  · split <;> rfl

@[simp] theorem orders_afterStroke : (afterStroke s).queue.orders = s.queue.orders := by
  unfold afterStroke; split
  · split
    · rfl
    · split
      · rfl
      · split <;> rfl
  · rfl

@[simp] theorem orders_endRetract : (endRetract s).1.queue.orders = s.queue.orders := by
  unfold endRetract; split
  · rfl
  · dsimp only; split
    · simp
    · split <;> simp

@[simp] theorem orders_noteLate : (noteLate s).queue.orders = s.queue.orders := by unfold noteLate; split <;> rfl

@[simp] theorem orders_startPanel : (startPanel s).queue.orders = s.queue.orders := by
  unfold startPanel; dsimp only; split
  · simp
  · simp [beginLength, writeMark, beginPanel]

@[simp] theorem orders_holdFor (h : HoldReason) : (holdFor h s).queue.orders = s.queue.orders := by simp [holdFor]
@[simp] theorem orders_restIdle : (restIdle s).queue.orders = s.queue.orders := by simp [restIdle]
@[simp] theorem orders_startBridge (i : Fin 4) : (startBridge i s).queue.orders = s.queue.orders := by
  simp [startBridge, writeMark]

@[simp] theorem orders_boundaryTest : (boundaryTest s).1.queue.orders = s.queue.orders := by
  unfold boundaryTest; split
  · rfl
  · split
    · dsimp only; rw [orders_holdFor]; split <;> rfl
    · split
      · split
        · simp
        · split <;> simp
      · split
        · simp
        · split <;> simp

/-! ### Orders that are not frozen -/

/-- No order of the queue is frozen. -/
def Unfrozen : Prop := ∀ o ∈ s.queue.orders, o.frozen = false

end

section
variable {s : State}

theorem Unfrozen.of_orders {t : State} (h : t.queue.orders = s.queue.orders) (hs : Unfrozen s) : Unfrozen t := by
  unfold Unfrozen; rwa [h]

theorem Unfrozen.retire (k : Nat) (h : Unfrozen s) : Unfrozen (retire k s) := by
  unfold Machine.retire; split
  · exact h
  · next o rest ho =>
    intro x hx
    exact h x (ho ▸ List.mem_cons_of_mem o hx)

theorem Unfrozen.countPanel (h : Unfrozen s) : Unfrozen (countPanel s) := by
  have hc : Unfrozen (onHead (fun o => { o with done := bump16 o.done }) s) := by
    intro x hx
    cases ho : s.queue.orders with
    | nil => simp [onHead, ho] at hx
    | cons o os =>
      simp only [onHead, State.onQueue, ho, List.modifyHead_cons, List.mem_cons] at hx
      rcases hx with rfl | hx
      · exact h o (ho ▸ List.mem_cons_self)
      · exact h x (ho ▸ List.mem_cons_of_mem o hx)
  unfold Machine.countPanel; dsimp only; split
  · exact hc
  · split
    · exact hc.retire 0
    · split
      · exact hc.retire 1
      · exact hc

theorem Unfrozen.endPanel (h : Unfrozen s) : Unfrozen (endPanel s).1 := by
  unfold Machine.endPanel; split
  · exact h
  · exact (h.of_orders (orders_closePanel s _ false)).countPanel

theorem Unfrozen.formerAbort (h : Unfrozen s) : Unfrozen (formerAbort s).1 := by
  have ha : Unfrozen (abortPanel s) := by
    unfold abortPanel; split
    · exact h
    · next n _ =>
      have hc : Unfrozen (closePanel n true s) := h.of_orders (orders_closePanel s n true)
      unfold countAborted; split
      · exact hc
      · split
        · exact hc.retire 1
        · exact hc
  refine ha.of_orders ?_
  unfold Machine.formerAbort abortBridge
  dsimp only [quiet]
  rw [orders_withdrawCauses]
  split <;> rfl

theorem Unfrozen.formerTest (h : Unfrozen s) : Unfrozen (formerTest s).1 := by
  unfold Machine.formerTest; split
  case h_1 | h_2 | h_3 =>
    split
    · unfold endFollow; split
      · exact h.of_orders (by simp)
      · split
        · split
          · exact h
          · exact h.of_orders (by simp)
        · exact h
      · exact h.endPanel
      all_goals exact h
    · exact h
  case h_4 => split <;> exact h.of_orders (by simp [quiet])
  case h_5 => dsimp only [quiet]; split <;> exact h.of_orders (by simp [endFeed])
  case h_6 | h_7 => exact h.of_orders (by simp [quiet])
  case h_8 => split <;> exact h.of_orders (by simp [quiet])
  case h_9 => refine h.of_orders ?_; unfold keepReached quiet; dsimp only; split <;> rfl
  all_goals exact h

/-- Every signal that is not the planner's freezes no order. -/
theorem Unfrozen.handle (h : Unfrozen s) {g : Sig} (hg : plannerSignal g = false) : Unfrozen (handle g s).1 := by
  have ite_line : ∀ {c : Prop} [Decidable c] (l : LineState),
      Unfrozen (if c then enterLine l s else quiet s).1 := by
    intro c _ l
    split
    · exact h.of_orders (orders_enterLine s l)
    · exact h
  cases g
  case trip c => refine h.of_orders ?_; show (tripLine c s).1.queue.orders = _; unfold tripLine; dsimp only; split <;> simp [quiet, raise]
  case hoodSeen => exact ite_line .running
  case warm => exact ite_line .lowering
  case causes =>
    refine h.of_orders ?_
    show (causesChanged s).1.queue.orders = _
    unfold causesChanged; split
    · simp
    · split <;> simp [quiet]
  case stopCheck => exact ite_line .stopped
  case reportEnd => exact ite_line .stopping
  case settled b =>
    refine h.of_orders ?_
    show (reportSettled b s).1.queue.orders = _
    unfold reportSettled; dsimp only; split
    · rfl
    · dsimp only; split <;> rfl
  case drain =>
    refine h.of_orders ?_
    show (drainTest s).1.queue.orders = _
    unfold drainTest; split
    · rfl
    · split <;> simp [quiet]
  case former => exact h.formerTest
  case boundary => exact h.of_orders (orders_boundaryTest s)
  case space => show Unfrozen (spaceTest s).1; unfold spaceTest; split <;> exact h
  case formerRun =>
    refine h.of_orders ?_
    show (formerRun s).1.queue.orders = _
    unfold formerRun; split
    · rfl
    · split
      case h_2 =>
        split
        · unfold resumeWork; dsimp only; split <;> simp
        · rfl
      all_goals rfl
  case formerPause =>
    refine h.of_orders ?_
    show (formerPause s).1.queue.orders = _
    unfold formerPause; split <;> simp [quiet]
  case abort => exact h.formerAbort
  case bridge => show Unfrozen (bridgeTest s).1; unfold bridgeTest; split <;> exact h
  case joints => refine h.of_orders ?_; show (arriveJoints s).queue.orders = _; simp [arriveJoints]
  case jointsPast => refine h.of_orders ?_; show (passJoints s).1.queue.orders = _; simp [passJoints]
  case track x => exact h
  case knife => exact h.of_orders (orders_passKnife s)
  all_goals cases hg

/-- With the planner IDLE and no joint due, a cascade without a trip freezes no order. -/
theorem unfrozen_settle_idle {w : Work} (hw : tripFree w.2 = true) (hs : w.1.roll.planner.state = .idle)
    (hj : w.1.roll.planner.jointDue = none) (h : Unfrozen w.1) : Unfrozen (settle w) := by
  refine (settle_keeps_tripFree (P := fun u => Unfrozen u ∧ u.roll.planner = w.1.roll.planner) ?_ ?_ w ⟨h, rfl⟩ hw).1
  · exact fun u hu => ⟨hu.1.of_orders (orders_flagJoints u), (congrArg Prod.fst (aside_flagJoints u)).trans hu.2⟩
  · rintro g u hg ⟨hu, hp⟩
    cases hgp : plannerSignal g with
    | false => exact ⟨hu.handle hgp, (congrArg Prod.fst (aside_handle g u hgp)).trans hp⟩
    | true =>
      rw [handle_idlePlanner hgp hg (by rw [hp, hs]) (by rw [hp, hj])]
      exact ⟨hu, hp⟩

end

end Sys2Proof.Machine
end

section
/-! SUPPORT. The splice requests: an arm and its search, a forced splice, a cancel with all that follows (R157, R161,
R166). -/

namespace Sys2Proof.Machine

open Sys2Proof.Safety

theorem flagJoints_planner (s : State) : (flagJoints s).roll.planner = s.roll.planner :=
  congrArg Prod.fst (aside_flagJoints s)

/-! ### The search of an arm -/

/-- An armed planner that has fired nothing since. -/
def FreshlyArmed (t : State) : Prop := Armed t.roll.planner ∧ t.roll.planner.firedSinceArm = false

theorem freshlyArmed_deadlineTest {s : State} (hs : s.roll.planner.state = .planning)
    (hf : s.roll.planner.firedSinceArm = false) : FreshlyArmed (deadlineTest s).1 := by
  unfold deadlineTest; split
  · split
    · exact ⟨Or.inr (Or.inr rfl), hf⟩
    · exact ⟨Or.inl hs, hf⟩
  · exact ⟨Or.inl hs, hf⟩

theorem freshlyArmed_approachTest {s : State} (hs : s.roll.planner.state = .scheduled)
    (hf : s.roll.planner.firedSinceArm = false) : FreshlyArmed (approachTest s).1 := by
  unfold approachTest; split
  · split
    · exact ⟨Or.inr (Or.inr rfl), hf⟩
    · exact ⟨Or.inr (Or.inl hs), hf⟩
  · exact ⟨Or.inr (Or.inl hs), hf⟩

theorem freshlyArmed_flagJoints {s : State} (h : FreshlyArmed s) : FreshlyArmed (flagJoints s) := by
  unfold FreshlyArmed; rwa [flagJoints_planner]

/-- A test of the planner's at the end of a cascade leaves it armed. -/
theorem leads_armed_last {g : Sig} {s : State} (hq : (handle g s).2 = []) (h : FreshlyArmed (handle g s).1) :
    Leads 1 [g] s FreshlyArmed := by
  refine Leads.take (k := 0) ?_
  rw [hq]
  exact Leads.done (freshlyArmed_flagJoints h)

theorem deadlineTest_signals (s : State) : (deadlineTest s).2 = [] := by
  unfold deadlineTest; split
  · split <;> rfl
  · rfl

theorem approachTest_signals (s : State) : (approachTest s).2 = [] := by
  unfold approachTest; split
  · split <;> rfl
  · rfl

/-- A search in PLANNING ends in PLANNING, SCHEDULED or APPROACH (R160). -/
theorem settle_search_armed {s : State} (hs : s.roll.planner.state = .planning)
    (hf : s.roll.planner.firedSinceArm = false) : FreshlyArmed (settle (s, [.search false])) := by
  refine Leads.settle (k := 2) (Leads.take (k := 1) ?_) (by decide)
  have hp := flagJoints_planner s
  show Leads 1 ((search false (flagJoints s)).2 ++ []) (flagJoints (search false (flagJoints s)).1) FreshlyArmed
  unfold search
  dsimp only
  rw [hp, hs]
  cases (searchFinds (flagJoints s)).2 with
  | none =>
    refine leads_armed_last (deadlineTest_signals _) (freshlyArmed_deadlineTest ?_ ?_)
    · rw [flagJoints_planner]; exact hp ▸ hs
    · rw [flagJoints_planner]; exact hp ▸ hf
  | some c =>
    refine leads_armed_last (approachTest_signals _) (freshlyArmed_approachTest ?_ ?_)
    · rw [flagJoints_planner]; rfl
    · rw [flagJoints_planner]; exact hp ▸ hf

/-- Under the joint-flag law the search is all that an arm is followed by. -/
theorem settle_search_planning {s : State} (hj : JointFlags s) (hs : s.roll.planner.state = .planning)
    (hr : s.roll.planner.status ≠ none) : settle (s, [.search false]) = searched s := by
  refine Settles.settle (k := 3) ?_ (by decide)
  rw [flagJoints_self hj]
  exact settles_search hj (Or.inr (by rw [hs]; decide)) hr (Settles.done _)

/-! ### The blocks -/

section
variable {p : Port} {pl : List Byte} {s : State}

theorem spliceArm_busy (h : s.roll.planner.state ≠ .idle) : spliceArm p pl s = refuse .busy s := if_pos h

theorem spliceArm_wrongState (h : s.roll.planner.state = .idle)
    (hw : s.sup.line = .tripped ∨ s.roll.planner.status = none) : spliceArm p pl s = refuse .wrongState s :=
  (if_neg (not_not.mpr h)).trans (if_pos hw)

/-- A planner armed, before its search (R157). -/
def armed (s : State) : State :=
  { s with roll := { s.roll with planner := { s.roll.planner with
    state := .planning, forced := false, firedSinceArm := false } } }

theorem spliceArm_taken (h : s.roll.planner.state = .idle) (hl : s.sup.line ≠ .tripped)
    (hr : s.roll.planner.status ≠ none) :
    spliceArm p pl s = (settle (armed s, [.search false]),
      ⟨.accepted, [BitVec.ofNat 8 (plannerStateCode (settle (armed s, [.search false])).roll.planner.state)]⟩) := by
  rw [spliceArm, if_neg (not_not.mpr h), if_neg (by simp [hl, hr])]
  simp only [byte1_eq]
  rfl

theorem spliceForce_busy (h : s.roll.planner.state = .approach ∨ s.roll.planner.state = .fired) :
    spliceForce p pl s = refuse .busy s := if_pos h

theorem spliceForce_wrongState (ha : s.roll.planner.state ≠ .approach) (hf : s.roll.planner.state ≠ .fired)
    (hl : s.sup.line = .tripped) : spliceForce p pl s = refuse .wrongState s :=
  (if_neg (not_or.mpr ⟨ha, hf⟩)).trans (if_pos hl)

theorem spliceForce_taken (ha : s.roll.planner.state ≠ .approach) (hf : s.roll.planner.state ≠ .fired)
    (hl : s.sup.line ≠ .tripped) :
    spliceForce p pl s =
      (splicedByForce (s.onPlanner fun q => { q with firedSinceArm := q.firedSinceArm && decide (q.state ≠ .idle) }),
        ⟨.accepted, posBytes (s.tracker.pIn + BitVec.ofNat 32 s.roll.geo.a)⟩) := by
  rw [spliceForce, if_neg (not_or.mpr ⟨ha, hf⟩), if_neg hl]
  simp only [forceSplice_eq]
  rfl

theorem spliceCancel_tooLate
    (h : s.roll.planner.state = .fired ∨ (s.roll.planner.state = .idle ∧ s.roll.planner.firedSinceArm = true)) :
    spliceCancel p pl s = refuse .tooLate s := by
  unfold spliceCancel
  rcases h with h | ⟨h, hf⟩
  · rw [h]
  · rw [h]; exact if_pos hf

theorem spliceCancel_wrongState (h : s.roll.planner.state = .idle) (hf : s.roll.planner.firedSinceArm = false) :
    spliceCancel p pl s = refuse .wrongState s := by
  unfold spliceCancel
  rw [h]
  exact if_neg (by simp [hf])

theorem spliceCancel_taken (h : Armed s.roll.planner) :
    spliceCancel p pl s = okWith [] (settle (withdrawSplice none s)) := by
  unfold spliceCancel
  rcases h with h | h | h <;> rw [h]

end

/-! ### A cancelled splice -/

theorem orders_withdrawSplice {s : State} (c : Option FailCause) (h : cancellable s.roll.planner.state = true) :
    (withdrawSplice c s).1.queue.orders = s.queue.orders.map fun o => { o with frozen := false } := by
  have hroll : ∀ u : State, (testRollLow u).queue.orders = u.queue.orders := by
    intro u; unfold testRollLow; split
    · rfl
    · split <;> rfl
  unfold withdrawSplice
  rw [if_pos h]
  refine (hroll _).trans ?_
  cases c <;> rfl

theorem unfrozen_withdrawSplice {s : State} (c : Option FailCause) (h : cancellable s.roll.planner.state = true) :
    Unfrozen (withdrawSplice c s).1 := by
  intro o ho
  rw [orders_withdrawSplice c h] at ho
  obtain ⟨o', -, rfl⟩ := List.mem_map.mp ho
  rfl

theorem withdrawSplice_ports (c : Option FailCause) (s : State) : (withdrawSplice c s).1.ports = s.ports :=
  core_proj State.ports (core_withdrawSplice s c) fun _ => rfl

/-- A withdrawn splice, with all that follows: nothing planned, no limit, nothing frozen (R166). -/
theorem settle_withdrawSplice {s : State} (h : cancellable s.roll.planner.state = true) :
    (∃ st, (settle (withdrawSplice none s)).roll.planner =
      { s.roll.planner with
        state := .idle, pFire := none, stretch := none, jointDue := none, freeze := none, status := st }) ∧
      (settle (withdrawSplice none s)).sup.spliceLimit = false ∧ Unfrozen (settle (withdrawSplice none s)) := by
  obtain ⟨st, hp, -⟩ := withdrawSplice_planner none h
  have hfree := withdrawSplice_signals none s
  have hside : aside (settle (withdrawSplice none s)) = aside (withdrawSplice none s).1 := by
    have hflag := flagJoints_planner (withdrawSplice none s).1
    rw [settle, aside_cascade_idle hfree (by rw [hflag, hp]) (by rw [hflag, hp]), aside_flagJoints]
  refine ⟨⟨st, (congrArg Prod.fst hside).trans hp⟩, ?_, ?_⟩
  · exact (congrArg (fun a => a.2.1) hside).trans (withdrawSplice_spliceLimit none h)
  · exact unfrozen_settle_idle hfree (by rw [hp]) (by rw [hp]) (unfrozen_withdrawSplice none h)

end Sys2Proof.Machine

namespace Sys2Proof.Proofs

open Sys2Proof.Machine Sys2Proof.Safety

/-- Settles O43: the blocks' cases; the search of an arm is told in full under the joint-flag law, and a cancel's cascade
finds an IDLE planner. -/
theorem spliceRequests : Obligations.SpliceRequests := by
  intro extra s
  dsimp only
  have harm := exec_spliceArm (f := ⟨.roll, [], extra⟩) s (by simp) rfl rfl
  have hforce := exec_spliceForce (f := ⟨.roll, [], extra⟩) s (by simp) rfl rfl
  have hcancel := exec_spliceCancel (f := ⟨.roll, [], extra⟩) s (by simp) rfl rfl
  refine ⟨fun h => ?_, fun h hw => ?_, fun h hl hr => ?_, fun h => ?_, fun ha hf hl => ?_, fun ha hf hl => ?_,
    fun h => ?_, fun h hf => ?_, fun h => ?_⟩
  · exact harm.trans (congrArg _ (answeredBy_refused (spliceArm_busy h)))
  · exact harm.trans (congrArg _ (answeredBy_refused (spliceArm_wrongState h hw)))
  · have hblock := spliceArm_taken (p := .roll) (pl := []) (s := received 0x31 ⟨.roll, [], extra⟩ s) h hl hr
    obtain ⟨hstate, hfired⟩ := settle_search_armed (s := armed (received 0x31 ⟨.roll, [], extra⟩ s)) rfl rfl
    refine ⟨_, harm.trans (congrArg _ (answeredBy_eq hblock (settle_ports _))), rfl, hstate, hfired, fun hj => ?_⟩
    rw [settle_search_planning (s := armed (received 0x31 _ s)) hj rfl hr]
    exact searched_answered (armed s) (received 0x31 ⟨.roll, [], extra⟩ s).ports _
  · exact hforce.trans (congrArg _ (answeredBy_refused (spliceForce_busy h)))
  · exact hforce.trans (congrArg _ (answeredBy_refused (spliceForce_wrongState ha hf hl)))
  · exact hforce.trans (congrArg _ (answeredBy_eq (spliceForce_taken ha hf hl) rfl))
  · exact hcancel.trans (congrArg _ (answeredBy_refused (spliceCancel_tooLate h)))
  · exact hcancel.trans (congrArg _ (answeredBy_refused (spliceCancel_wrongState h hf)))
  · have hc := (cancellable_iff _).mpr h
    have hblock := spliceCancel_taken (p := .roll) (pl := []) (s := received 0x33 ⟨.roll, [], extra⟩ s) h
    have hports : (settle (withdrawSplice none (received 0x33 ⟨.roll, [], extra⟩ s))).ports =
        (received 0x33 ⟨.roll, [], extra⟩ s).ports := by
      rw [settle_ports, withdrawSplice_ports]
    obtain ⟨⟨st, hp⟩, hlimit, hfree⟩ := settle_withdrawSplice (s := received 0x33 ⟨.roll, [], extra⟩ s) hc
    refine ⟨_, hcancel.trans (congrArg _ (answeredBy_eq hblock hports)), rfl, ?_, ?_, ?_, ?_, ?_, hlimit, hfree⟩
    all_goals
      dsimp only
      rw [hp]

end Sys2Proof.Proofs
end

section
/-! SUPPORT. A trip of the line and all that follows from it: the former's abort, the end of a splice that has not fired,
the settled condition (R49, R76, R79, R167, R183). -/

namespace Sys2Proof.Machine

open Sys2Proof.Safety

/-! ### Event records -/

theorem noted_iff {k : EventKind} {d : List Byte} {s t : State} :
    Noted k d s t ↔ recordsOf k t = (recordsOf k s).map (Option.map (noteRecord d)) := by
  have hq : ∀ q, (notePort k d (s.router.get q)).records[eventNumber k]? =
      ((recordsOf k s).map (Option.map (noteRecord d))).get q := fun q => by
    rw [Three.get_map, recordsOf_get]
    exact recordOf_notePort_same k d (s.router.get q)
  constructor
  · intro h
    exact Three.ext_get fun q => by rw [recordsOf_get, ← hq q]; exact h q
  · intro h q
    rw [hq q, ← h, recordsOf_get]
    rfl

theorem recordsOf_router {k : EventKind} {s t : State} (h : t.router = s.router) : recordsOf k t = recordsOf k s := by
  rw [recordsOf, recordsOf, h]

/-! ### Targets -/

theorem handTarget_target (t : Nat) (z z' : Fin 4) (s : State) :
    ((handTarget t z s).zones.get z').target = if z' = z then t else (s.zones.get z').target := by
  unfold handTarget
  split
  · next h =>
    split
    · next hz => rw [hz]; exact h
    · rfl
  · show ((s.zones.set z _).get z').target = _
    rw [Four.get_set]
    split <;> rfl

/-- Every zone is handed the target of the line state (R108, R134). -/
theorem retarget_target (s : State) (z : Fin 4) :
    ((retarget s).zones.get z).target = targetFor (tunnelEntry s) s.sup.line s.sup.vPlanRun z := by
  unfold retarget
  simp only [zonesInOrder, List.foldl_cons, List.foldl_nil, handTarget_target]
  match z with
  | 0 | 1 | 2 | 3 => rfl

theorem setLine_target (l : LineState) (s : State) (z : Fin 4) :
    ((setLine l s).zones.get z).target = targetFor (tunnelEntry s) l s.sup.vPlanRun z := by
  unfold setLine
  exact retarget_target _ z

/-- A used or an unused zone of a TRIPPED line stands by (R108). -/
theorem targetFor_tripped (e : Option Recipe) (v : Nat) (z : Fin 4) :
    targetFor e .tripped v z = (e.map Recipe.tStandby).getD 0 := by
  cases e with
  | none => rfl
  | some r => simp [targetFor, standby]

/-! ### The line's own part -/

/-- The Supervisor of a line that trips. -/
def trippedSup (c : TripCause) (t : Tracker) (v : Supervisor) (timer : Option Nat) : Supervisor :=
  { v with
    prev := v.line, line := .tripped, tripCause := some c, stopPending := false, hoodDelayTimer := none,
    causes := { v.causes with heat := false }, vPlan := 0, vRef := 0, speedOut := 0, hoodDown := false,
    hood := if t.hoodUp.level = true then .up else .raising, hoodTimer := timer }

/-- A hood commanded up at standstill (R177). -/
theorem commandHood_up {s : State} (hv : s.sup.vRef = 0) (ho : s.sup.speedOut = 0) :
    ∃ timer, commandHood false s = { s with sup := { s.sup with
      hoodDown := false, hood := if s.tracker.hoodUp.level = true then .up else .raising, hoodTimer := timer } } := by
  unfold commandHood deriveHood
  dsimp only
  split
  · next h =>
    refine ⟨s.sup.hoodTimer, ?_⟩
    have hd : (if s.tracker.hoodUp.level = true then HoodState.up else .raising) = s.sup.hood := h
    rw [hd]
    rfl
  · refine ⟨hoodTimerFor s.sup.set.hoodTimeout (derivedHood false s.tracker), ?_⟩
    simp only [State.onSup, hoodChanged, hv, ho, ite_self]
    rfl

/-- The detail of TRIP (R24). -/
def tripDetail (c : TripCause) (s : State) : List Byte :=
  byte1 (tripCauseCode c) ++ byte1 (lineStateCode s.sup.line) ++ posBytes s.tracker.pOut

theorem tripLine_tripped {c : TripCause} {s : State} (h : s.sup.line = .tripped) :
    tripLine c s = quiet (raise .trip (tripDetail c s) s) := if_pos h

/-- The ports told of a trip (R24). -/
def tripTold (c : TripCause) (s : State) : Three RouterPort :=
  (s.router.map (notePort .trip (tripDetail c s))).map (notePort .lineState
    [BitVec.ofNat 8 6, BitVec.ofNat 8 (lineStateCode s.sup.line), BitVec.ofNat 8 0])

/-- A line that trips (R183). -/
theorem tripLine_eq (c : TripCause) {s : State} (h : s.sup.line ≠ .tripped) :
    ∃ zs ms timer, tripLine c s =
      ({ s with
        sup := trippedSup c s.tracker s.sup timer
        zones := zs
        monitor := { s.monitor with zones := ms, breakTimer := none }
        router := tripTold c s },
        [.abort, .cancelSplice (some .trip), .settled false]) ∧
      ∀ z, (zs.get z).target = ((tunnelEntry s).map Recipe.tStandby).getD 0 := by
  let u : State := { s with
    sup := { withoutHeat (dropSpeed s.sup) with tripCause := some c, stopPending := false, hoodDelayTimer := none }
    router := s.router.map (notePort .trip (tripDetail c s)) }
  have hlow : tripLine c s = ((commandHood false (setLine .tripped u)).onMonitor fun m => { m with breakTimer := none },
      [.abort, .cancelSplice (some .trip), .settled false]) := if_neg h
  obtain ⟨zs, ms, hline⟩ := setLine_eq u .tripped
  have htarget := setLine_target .tripped u
  rw [hline] at hlow htarget
  obtain ⟨timer, hhood⟩ := commandHood_up (s := { u with
    sup := { u.sup with prev := u.sup.line, line := .tripped }
    zones := zs
    monitor := { u.monitor with zones := ms }
    router := u.router.map (notePort .lineState
      [BitVec.ofNat 8 (lineStateCode .tripped), BitVec.ofNat 8 (lineStateCode u.sup.line),
        BitVec.ofNat 8 0]) }) rfl rfl
  refine ⟨zs, ms, timer, ?_, fun z => (htarget z).trans (targetFor_tripped _ _ z)⟩
  rw [hlow]
  congr 1
  exact congrArg (fun x : State => x.onMonitor fun m => { m with breakTimer := none }) hhood

end Sys2Proof.Machine
end

section
/-! SUPPORT. The former's part in a trip: the panel in formation closed ABORTED, the bridge ended, the order it may retire
(R49, R76, R79). -/

namespace Sys2Proof.Machine

open Sys2Proof.Safety

/-- The trackers' part of an abort: the marks written, the record of the panel ended. -/
def abortedTracker (f : Former) (t : Tracker) : Tracker :=
  { t with
    map := t.map ++ (match f.panel with
        | none => []
        | some n => [⟨.panelEnd, t.pOut, some n⟩]) ++
      (if Bridging f then [⟨.bridgeEnd, t.pOut, none⟩] else []),
    table := t.table.map fun r =>
      if f.panel = some r.number then
        { r with pInEnd := some t.pIn, pOutEnd := some t.pOut, aborted := true, state := .travelling }
      else r }

/-- The queue and the routed events after an abort (R49). -/
def AbortLeaves (s : State) (q : RunQueue) (router : Three RouterPort) : Prop :=
  ((∀ o os, ¬AbortRetires s o os) → q = s.queue ∧ router = s.router) ∧
  ∀ o os, AbortRetires s o os → q.active = false ∧ q.orders = os ∧
    router = s.router.map (notePort .orderDone (byte1 o.id ++ byte1 o.pattern.val ++ bytes2 o.done ++ byte1 1))

theorem cutSeesEnd_eq (s : State) : ∃ c, cutSeesEnd s = { s with roll := { s.roll with cut := c } } := by
  have hid : ∃ c, s = { s with roll := { s.roll with cut := c } } := ⟨s.roll.cut, rfl⟩
  unfold cutSeesEnd
  split
  · unfold chooseTarget
    split
    · exact hid
    · exact ⟨_, rfl⟩
  · exact hid

/-- A panel closed ABORTED, counted against its order. -/
theorem countAborted_leaves {s : State} (hp : s.former.panel ≠ none) :
    ∃ store q router, countAborted s = { s with store := store, queue := q, router := router } ∧ AbortLeaves s q router := by
  cases hos : s.queue.orders with
  | nil =>
    refine ⟨s.store, s.queue, s.router, ?_, fun _ => ⟨rfl, rfl⟩, fun o os h => ?_⟩
    · rw [countAborted, headOrder, hos]; rfl
    · exact absurd (hos.symm.trans h.2.1) (by simp)
  | cons o os =>
    have hhead : headOrder s = some o := by rw [headOrder, hos]; rfl
    by_cases hc : o.cancel = true
    · have h : AbortRetires s o os := ⟨hp, hos, hc⟩
      refine ⟨freedStore o s, { s.queue with orders := os, active := false },
        s.router.map (notePort .orderDone (byte1 o.id ++ byte1 o.pattern.val ++ bytes2 o.done ++ byte1 1)),
        ?_, fun hn => absurd h (hn o os), fun o' os' h' => ?_⟩
      · rw [countAborted, hhead]
        dsimp only
        rw [if_pos hc, retire_head hos]
        rfl
      · obtain ⟨rfl, rfl⟩ := List.cons.inj (hos.symm.trans h'.2.1)
        exact ⟨rfl, rfl, rfl⟩
    · refine ⟨s.store, s.queue, s.router, ?_, fun _ => ⟨rfl, rfl⟩, fun o' os' h' => ?_⟩
      · rw [countAborted, hhead]
        exact if_neg hc
      · obtain ⟨rfl, rfl⟩ := List.cons.inj (hos.symm.trans h'.2.1)
        exact absurd h'.2.2 hc

/-- A panel's record ended ABORTED. -/
def closedTable (f : Former) (t : Tracker) : List PanelRec :=
  t.table.map fun r =>
    if f.panel = some r.number then
      { r with pInEnd := some t.pIn, pOutEnd := some t.pOut, aborted := true, state := .travelling }
    else r

/-- The panel in formation closed by a trip: its mark, its record (R76). -/
theorem abortPanel_leaves (s : State) :
    ∃ cut store q router, abortPanel s = { s with
      tracker := { s.tracker with
        map := s.tracker.map ++ (match s.former.panel with
          | none => []
          | some n => [⟨.panelEnd, s.tracker.pOut, some n⟩])
        table := closedTable s.former s.tracker }
      roll := { s.roll with cut := cut }, store := store, queue := q, router := router } ∧ AbortLeaves s q router := by
  unfold abortPanel
  cases hp : s.former.panel with
  | none =>
    refine ⟨s.roll.cut, s.store, s.queue, s.router, ?_, fun _ => ⟨rfl, rfl⟩, fun o os h => absurd hp h.1⟩
    simp [closedTable, hp]
  | some n =>
    obtain ⟨cut, hcut⟩ := cutSeesEnd_eq (onPanel n (endedRecord s.tracker true) (writeMark .panelEnd (some n) s))
    have htable : s.tracker.table.map (fun r => if r.number = n then endedRecord s.tracker true r else r) =
        closedTable s.former s.tracker := by
      refine List.map_congr_left fun r _ => ?_
      simp only [hp, Option.some.injEq, endedRecord, Bool.or_true]
      exact if_congr eq_comm rfl rfl
    have hclose : closePanel n true s = { s with
        tracker := { s.tracker with
          map := s.tracker.map ++ [⟨.panelEnd, s.tracker.pOut, some n⟩]
          table := closedTable s.former s.tracker }
        roll := { s.roll with cut := cut } } := by
      rw [← htable]
      exact hcut
    dsimp only
    rw [hclose]
    obtain ⟨store, q, router, hcount, hleaves⟩ := countAborted_leaves (s := { s with
        tracker := { s.tracker with
          map := s.tracker.map ++ [⟨.panelEnd, s.tracker.pOut, some n⟩]
          table := closedTable s.former s.tracker }
        roll := { s.roll with cut := cut } }) (by rw [hp]; simp)
    exact ⟨cut, store, q, router, hcount, hleaves⟩

/-- The end of a bridge in a trip (R79, R128). -/
theorem abortBridge_eq (s : State) : abortBridge s = { s with
    tracker := { s.tracker with
      map := s.tracker.map ++ (if Bridging s.former then [⟨.bridgeEnd, s.tracker.pOut, none⟩] else []) }
    dose := { s.dose with pendingRecipe := if Bridging s.former then none else s.dose.pendingRecipe } } := by
  have hbridge : bridgeRunning s.former = true ↔ Bridging s.former := by simp [bridgeRunning, Bridging]
  unfold abortBridge
  simp only [hbridge]
  split
  · rfl
  · rw [List.append_nil]

/-- The former's abort (R76, R79): the holds it had caused are withdrawn, which a line neither RUNNING nor HOLDING does
not tell. -/
theorem formerAbort_leaves {s : State} (hr : s.sup.line ≠ .running) (hh : s.sup.line ≠ .holding) :
    ∃ cut store q router, formerAbort s = quiet { s with
      sup := { s.sup with causes := { s.sup.causes with starved := false, trackFull := false } }
      former := abortedFormer s.tracker.bladeHome.level s.former
      tracker := abortedTracker s.former s.tracker
      dose := { s.dose with pendingRecipe := if Bridging s.former then none else s.dose.pendingRecipe }
      roll := { s.roll with cut := cut }, store := store, queue := q, router := router } ∧ AbortLeaves s q router := by
  obtain ⟨cut, store, q, router, hpanel, hleaves⟩ := abortPanel_leaves s
  refine ⟨cut, store, q, router, ?_, hleaves⟩
  have hcauses : ∀ u : State, u.sup = s.sup → withdrawCauses u =
      { u with sup := { u.sup with causes := { u.sup.causes with starved := false, trackFull := false } } } := by
    intro u hu
    rw [withdrawCauses, setCauses_eq, if_neg fun h => by rw [hu] at h; exact h.2.elim hr hh]
  unfold formerAbort
  dsimp only
  rw [hpanel, abortBridge_eq]
  exact congrArg quiet (hcauses _ rfl)

end Sys2Proof.Machine
end

section
/-! SUPPORT. The end of a splice that has not fired (R167), and the trip in full (R183). -/

namespace Sys2Proof.Machine

open Sys2Proof.Safety

/-! ### The splice -/

/-- The orders with none frozen, if a splice was armed (R53). -/
def releasedBy (p : Planner) (os : List Order) : List Order :=
  if Armed p then os.map fun o => { o with frozen := false } else os

/-- `t` is `v` with its splice ended by a trip, and the settled condition examined. -/
structure SpliceEnded (v t : State) : Prop where
  core : core t = core v
  records : ∀ k, heavyKind k → recordsOf k t = recordsOf k v
  orders : t.queue.orders = releasedBy v.roll.planner v.queue.orders
  ended : Armed v.roll.planner →
    t.roll.planner.state = .idle ∧ t.roll.planner.pFire = none ∧ t.roll.planner.stretch = none ∧
      t.roll.planner.freeze = none ∧ t.roll.planner.jointDue = none ∧ t.sup.spliceLimit = false ∧
      Noted .spliceFailed (byte1 (failCode .trip) ++ posBytes (v.roll.planner.pFire.getD 0)) v t
  kept : ¬Armed v.roll.planner →
    t.roll.planner.state = v.roll.planner.state ∧ t.roll.planner.pFire = v.roll.planner.pFire

theorem core_calm {v u : State} (h : Calm v u) : core u = core v := by
  obtain ⟨⟨b, r, rfl⟩, -⟩ := h; rfl

/-- What the withdrawal of a trip leaves, the settled condition apart. -/
theorem spliceEnded_withdraw (v : State) {u : State} (h : Calm (withdrawSplice (some .trip) v).1 u) : SpliceEnded v u := by
  have hrec : ∀ k, heavyKind k → recordsOf k u = recordsOf k v := fun k hk =>
    (h.2 k hk.2.2.2).trans (recordsOf_withdrawSplice v hk.2.1.symm hk.2.2.1.symm _)
  have hcore := (core_calm h).trans (core_withdrawSplice v _)
  have hfail := h.2 .spliceFailed (by decide)
  obtain ⟨b, r, hu⟩ := h.1
  cases hc : cancellable v.roll.planner.state with
  | true =>
    have harmed : Armed v.roll.planner := (cancellable_iff _).mp hc
    obtain ⟨st, hp, -⟩ := withdrawSplice_planner (some .trip) hc
    refine ⟨hcore, hrec, ?_, fun _ => ?_, fun hn => absurd harmed hn⟩
    · rw [releasedBy, if_pos harmed, ← orders_withdrawSplice (some .trip) hc, hu]
    · have hplan : u.roll.planner = (withdrawSplice (some .trip) v).1.roll.planner := by rw [hu]
      have hlimit : u.sup.spliceLimit = false := by rw [hu]; exact withdrawSplice_spliceLimit _ hc
      rw [hplan, hp]
      exact ⟨rfl, rfl, rfl, rfl, rfl, hlimit, noted_iff.mpr (hfail.trans (withdrawSplice_failed .trip hc))⟩
  | false =>
    have harmed : ¬Armed v.roll.planner := fun ha => by rw [(cancellable_iff _).mpr ha] at hc; cases hc
    rw [withdrawSplice_quiet _ hc] at hu
    refine ⟨hcore, hrec, ?_, fun ha => absurd ha harmed, fun _ => ?_⟩
    · rw [releasedBy, if_neg harmed, hu, quiet]
    · rw [hu]; exact ⟨rfl, rfl⟩

theorem withdrawSplice_follows (c : Option FailCause) (s : State) :
    (withdrawSplice c s).2 = [] ∨ (withdrawSplice c s).2 = [.bridge] := by
  unfold withdrawSplice; split
  · exact Or.inr rfl
  · exact Or.inl rfl

theorem leads_spliceEnded {v : State} (hl : v.sup.line = .tripped) (hf : v.former.state = .idle) :
    Leads 5 [.cancelSplice (some .trip), .settled false] v (SpliceEnded v) := by
  refine Leads.take (k := 4) ?_
  have hcore := core_withdrawSplice v (some .trip)
  have hline : (withdrawSplice (some .trip) v).1.sup.line = .tripped := (core_line hcore).trans hl
  have hformer : (withdrawSplice (some .trip) v).1.former.state = .idle := (congrArg _ (core_former hcore)).trans hf
  have hjoint : JointFlags (withdrawSplice (some .trip) v).1 := fun hp => by simp [inPleatedStep, hformer] at hp
  show Leads 4 ((withdrawSplice (some .trip) v).2 ++ _) (flagJoints (withdrawSplice (some .trip) v).1) _
  rw [flagJoints_self hjoint]
  have hcalm : ∀ gs : List Sig, (∀ g ∈ gs, calmSignal g = true) → listLoad gs ≤ 4 →
      Leads 4 gs (withdrawSplice (some .trip) v).1 (SpliceEnded v) := by
    intro gs hgs hload
    have h := Leads.calm (rest := []) (k := 0) hgs (by rw [hline]; decide) (by rw [hformer]; decide) hjoint
      fun u hu => Leads.done (spliceEnded_withdraw v hu)
    rw [List.append_nil] at h
    exact h.mono hload
  rcases withdrawSplice_follows (some .trip) v with hw | hw <;> rw [hw]
  · exact hcalm [.settled false] (by simp [calmSignal]) (by decide)
  · exact hcalm [.bridge, .settled false] (by simp [calmSignal]) (by decide)

/-! ### The trip -/

theorem flagJoints_table (s : State) : ∃ T, flagJoints s = { s with tracker := { s.tracker with table := T } } ∧
    (JointFlags s → T = s.tracker.table) := by
  obtain ⟨f, -, h⟩ := flagJoints_eq s
  refine ⟨s.tracker.table.map f, h, fun hj => ?_⟩
  exact congrArg (fun u : State => u.tracker.table) (h.symm.trans (flagJoints_self hj))

/-- The line TRIPPED, the former yet to abort. -/
def lineTripped (c : TripCause) (s : State) (T : List PanelRec) (zs : Four Zone) (ms : Four ZoneMonitor)
    (timer : Option Nat) : State :=
  { s with
    tracker := { s.tracker with table := T }
    sup := trippedSup c s.tracker s.sup timer
    zones := zs
    monitor := { s.monitor with zones := ms, breakTimer := none }
    router := tripTold c s }

/-- The former aborted. -/
def formerAborted (u : State) (cut : Cut) (store : Store) (q : RunQueue) (router : Three RouterPort) : State :=
  { u with
    sup := { u.sup with causes := { u.sup.causes with starved := false, trackFull := false } }
    former := abortedFormer u.tracker.bladeHome.level u.former
    tracker := abortedTracker u.former u.tracker
    dose := { u.dose with pendingRecipe := if Bridging u.former then none else u.dose.pendingRecipe }
    roll := { u.roll with cut := cut }
    store := store, queue := q, router := router }

/-- Where a trip's three signals lead. -/
theorem leads_trip (c : TripCause) {s : State} (hl : s.sup.line ≠ .tripped) {Q : State → Prop}
    (h : ∀ T zs ms timer cut store q router t, (JointFlags s → T = s.tracker.table) →
      (∀ z, (zs.get z).target = ((tunnelEntry s).map Recipe.tStandby).getD 0) →
      AbortLeaves (lineTripped c s T zs ms timer) q router →
      SpliceEnded (formerAborted (lineTripped c s T zs ms timer) cut store q router) t → Q t) :
    Leads 7 [.trip c] (flagJoints s) Q := by
  obtain ⟨T, hT, hflags⟩ := flagJoints_table s
  obtain ⟨zs, ms, timer, htrip, hzones⟩ := tripLine_eq c (s := { s with tracker := { s.tracker with table := T } }) hl
  obtain ⟨T', hT', hflags'⟩ := flagJoints_table (lineTripped c s T zs ms timer)
  obtain ⟨cut, store, q, router, habort, hleaves⟩ :=
    formerAbort_leaves (s := lineTripped c s T' zs ms timer) (by simp [lineTripped, trippedSup])
      (by simp [lineTripped, trippedSup])
  refine Leads.take (k := 6) ?_
  rw [hT]
  have hline : handle (.trip c) { s with tracker := { s.tracker with table := T } } =
      (lineTripped c s T zs ms timer, [.abort, .cancelSplice (some .trip), .settled false]) := htrip
  rw [hline]
  dsimp only [List.cons_append, List.nil_append]
  rw [hT']
  refine Leads.take (k := 5) ?_
  have hidle : inPleatedStep (formerAborted (lineTripped c s T' zs ms timer) cut store q router).former = false := rfl
  have hdone : handle .abort (lineTripped c s T' zs ms timer) =
      quiet (formerAborted (lineTripped c s T' zs ms timer) cut store q router) := habort
  show Leads 5 ((handle .abort (lineTripped c s T' zs ms timer)).2 ++ _)
    (flagJoints (handle .abort (lineTripped c s T' zs ms timer)).1) Q
  rw [hdone, quiet, flagJoints_idle (Or.inl hidle)]
  refine (leads_spliceEnded rfl rfl).weaken fun t ht => ?_
  refine h T' zs ms timer cut store q router t (fun hj => ?_) hzones hleaves ht
  have h0 := hflags hj
  refine (hflags' ?_).trans h0
  rw [h0]
  exact hj

end Sys2Proof.Machine
end

section
/-! SUPPORT. The state a trip leaves (R49, R76, R79, R167, R183), and the inputs that trip the line. -/

namespace Sys2Proof.Machine

open Sys2Proof.Safety

section
variable {c : TripCause} {s : State} {T : List PanelRec} {zs : Four Zone} {ms : Four ZoneMonitor} {timer : Option Nat}
  {cut : Cut} {store : Store} {q : RunQueue} {router : Three RouterPort} {t : State}

/-! ### Event records -/

theorem noted_of_raise {k : EventKind} {d : List Byte} {v : State} (h : recordsOf k v = recordsOf k (raise k d s)) :
    Noted k d s v := noted_iff.mpr (h.trans (recordsOf_raise_same k d s))

theorem recordsOf_lineTripped (k : EventKind) : recordsOf k (lineTripped c s T zs ms timer) =
    recordsOf k (raise .lineState [6, BitVec.ofNat 8 (lineStateCode s.sup.line), 0] (raise .trip (tripDetail c s) s)) :=
  recordsOf_router rfl

theorem noted_trip_lineTripped : Noted .trip (tripDetail c s) s (lineTripped c s T zs ms timer) :=
  noted_of_raise ((recordsOf_lineTripped _).trans (recordsOf_raise_ne (by decide) _ _))

theorem noted_lineState_lineTripped :
    Noted .lineState [6, BitVec.ofNat 8 (lineStateCode s.sup.line), 0] s (lineTripped c s T zs ms timer) := by
  refine noted_iff.mpr ((recordsOf_lineTripped _).trans ((recordsOf_raise_same _ _ _).trans ?_))
  rw [recordsOf_raise_ne (by decide)]

/-- An abort tells no more than an order it retires. -/
theorem recordsOf_formerAborted {u : State} (h : AbortLeaves u q router) {k : EventKind} (hk : k ≠ .orderDone) :
    recordsOf k (formerAborted u cut store q router) = recordsOf k u := by
  by_cases hr : ∃ o os, AbortRetires u o os
  · obtain ⟨o, os, hr⟩ := hr
    obtain ⟨-, -, hrouter⟩ := h.2 o os hr
    exact (recordsOf_router hrouter).trans (recordsOf_raise_ne hk.symm _ u)
  · obtain ⟨-, hrouter⟩ := h.1 fun o os ho => hr ⟨o, os, ho⟩
    exact recordsOf_router hrouter

/-- A kind noted before the end of the splice is noted after it. -/
theorem noted_mono {k : EventKind} {d : List Byte} {v w : State} (h : Noted k d s v) (hw : recordsOf k w = recordsOf k v) :
    Noted k d s w := noted_iff.mpr (hw.trans (noted_iff.mp h))

/-! ### The state it leaves -/

section
variable (hT : JointFlags s → T = s.tracker.table)
  (hzones : ∀ z, (zs.get z).target = ((tunnelEntry s).map Recipe.tStandby).getD 0)
  (hleaves : AbortLeaves (lineTripped c s T zs ms timer) q router)
  (ht : SpliceEnded (formerAborted (lineTripped c s T zs ms timer) cut store q router) t)

theorem SpliceEnded.sup {v : State} (h : SpliceEnded v t) :
    { t.sup with spliceLimit := false } = { v.sup with spliceLimit := false } :=
  core_proj (fun u : State => { u.sup with spliceLimit := false }) h.core fun _ => rfl

include hT hzones hleaves ht

theorem trippedBy_of : TrippedBy c s t := by
  have hsup := ht.sup
  have htracker := core_tracker ht.core
  have hheavy : ∀ k, heavyKind k → k ≠ .orderDone → recordsOf k t = recordsOf k (lineTripped c s T zs ms timer) :=
    fun k hk hd => (ht.records k hk).trans (recordsOf_formerAborted hleaves hd)
  refine ⟨⟨congrArg Supervisor.line hsup, congrArg Supervisor.prev hsup, congrArg Supervisor.tripCause hsup,
    congrArg Supervisor.vPlan hsup, congrArg Supervisor.vRef hsup, congrArg Supervisor.speedOut hsup,
    congrArg Supervisor.stopPending hsup, congrArg Supervisor.causes hsup, congrArg Supervisor.hoodDown hsup, ?_,
    congrArg Supervisor.hoodDelayTimer hsup, congrArg Monitor.breakTimer (core_monitor ht.core)⟩, ?_, ?_, ?_, ?_, ?_, ?_,
    ?_, ?_, ?_, ?_⟩
  · rw [htracker]
    exact congrArg Supervisor.hood hsup
  · have hd : le1 (1 + codeIn [.estop, .webBreak, .webReverse, .feedTimeout, .bladeJam, .hoodFault, .rollOut] c) =
        byte1 (tripCauseCode c) := by cases c <;> rfl
    rw [hd, le1_eq, lineCode_eq, le4_eq, ← posBytes_eq]
    exact noted_mono noted_trip_lineTripped (hheavy .trip (by simp [heavyKind]) (by decide))
  · rw [le1_eq, le1_eq, le1_eq, lineCode_eq, byte1_eq, byte1_eq, byte1_eq]
    exact noted_mono noted_lineState_lineTripped (hheavy .lineState (by simp [heavyKind]) (by decide))
  · intro z
    rw [core_zones ht.core]
    refine (hzones z).trans ?_
    unfold tunnelEntry
    cases s.dose.tunnelRecipe <;> rfl
  · rw [htracker]
    exact core_former ht.core
  · intro hj
    obtain rfl := hT hj
    exact htracker
  · exact congrArg Dose.pendingRecipe (core_dose ht.core)
  · intro hn
    obtain ⟨hq, -⟩ := hleaves.1 hn
    subst hq
    exact ⟨(core_active ht.core :), ht.orders⟩
  · intro o os hr
    obtain ⟨hactive, horders, hrouter⟩ := hleaves.2 o os hr
    refine ⟨(core_active ht.core).trans hactive, ht.orders.trans (congrArg (releasedBy _) horders), ?_⟩
    have hdone : recordsOf .orderDone t = recordsOf .orderDone (raise .orderDone
        (byte1 o.id ++ byte1 o.pattern.val ++ bytes2 o.done ++ byte1 1) (lineTripped c s T zs ms timer)) :=
      (ht.records _ (by simp [heavyKind])).trans (recordsOf_router hrouter)
    rw [le1_eq, le1_eq, le2_eq, le1_eq]
    refine noted_iff.mpr (hdone.trans ((recordsOf_raise_same _ _ _).trans ?_))
    rw [recordsOf_lineTripped, recordsOf_raise_ne (by decide), recordsOf_raise_ne (by decide)]
  · intro ha
    obtain ⟨hstate, hfire, hstretch, hfreeze, hdue, hlimit, hfailed⟩ := ht.ended ha
    refine ⟨hstate, hfire, hstretch, hfreeze, hdue, hlimit, ?_⟩
    rw [le1_eq, le4_eq, ← posBytes_eq]
    refine noted_iff.mpr ((noted_iff.mp hfailed).trans ?_)
    rw [recordsOf_formerAborted hleaves (by decide), recordsOf_lineTripped, recordsOf_raise_ne (by decide),
      recordsOf_raise_ne (by decide)]
    rfl
  · exact ht.kept

end

end

/-- A trip with all that follows. -/
theorem settle_trip (c : TripCause) {s : State} (hl : s.sup.line ≠ .tripped) : TrippedBy c s (settle (s, [.trip c])) :=
  Leads.settle (leads_trip c hl fun _ _ _ _ _ _ _ _ _ => trippedBy_of) (by decide)

/-- A trip of a line already TRIPPED is told again, and nothing more (R183). -/
theorem settle_trip_again (c : TripCause) {s : State} (hl : s.sup.line = .tripped) :
    ∃ T, settle (s, [.trip c]) = { s with
      tracker := { s.tracker with table := T }
      router := s.router.map (notePort .trip (tripDetail c s)) } := by
  obtain ⟨T, hT, -⟩ := flagJoints_table s
  have htrip := tripLine_tripped (c := c) (s := flagJoints s) (by rw [hT]; exact hl)
  obtain ⟨T', hT', -⟩ := flagJoints_table (raise .trip (tripDetail c (flagJoints s)) (flagJoints s))
  refine ⟨T', Leads.settle (k := 1) (Q := fun t => t = _) (Leads.take (k := 0) ?_) (by decide)⟩
  show Leads 0 ((tripLine c (flagJoints s)).2 ++ []) (flagJoints (tripLine c (flagJoints s)).1) _
  rw [htrip, quiet, hT', hT]
  exact Leads.done rfl

end Sys2Proof.Machine

namespace Sys2Proof.Proofs

open Sys2Proof.Machine Sys2Proof.Safety

/-- What an input that trips the line asks of the state after it. -/
def tripsInto (c : TripCause) (s t : State) : Prop :=
  (s.sup.line ≠ .tripped → TrippedBy c s t) ∧
    (s.sup.line = .tripped →
      t.sup.line = .tripped ∧ t.sup.tripCause = s.sup.tripCause ∧ t.former.state = s.former.state ∧
        t.router = s.router.map (notePort .trip ([BitVec.ofNat 8 (tripCauseCode c), 6] ++ posBytes s.tracker.pOut)))

theorem tripsInto_settle (c : TripCause) (s : State) : tripsInto c s (settle (s, [.trip c])) := by
  refine ⟨settle_trip c, fun hl => ?_⟩
  obtain ⟨T, h⟩ := settle_trip_again c hl
  rw [h]
  refine ⟨hl, rfl, rfl, ?_⟩
  show s.router.map (notePort .trip (tripDetail c s)) = _
  rw [tripDetail, hl]
  rfl

/-- Settles O35: each of the five inputs ends a timer or records a level, which the trip that follows does not see. -/
theorem trips : Obligations.Trips := by
  refine ⟨fun high s h hj => ?_, ?_⟩
  · have hgive : giveEstop (high == s.tracker.set.estopPol) (s.onPins fun p => { p with estop := high }) =
        quiet { s with
          pins := { s.pins with estop := high }
          monitor := { s.monitor with estop := high == s.tracker.set.estopPol } } := by
      unfold giveEstop
      split
      · next heq => rw [heq]; rfl
      · next hne =>
        have hlow : (high == s.tracker.set.estopPol) = false := h.elim id fun he =>
          Bool.eq_false_iff.mpr fun hh => hne (hh.trans he.symm)
        rw [hlow]; rfl
    show Host.Outcome.next (settle (giveEstop (high == s.tracker.set.estopPol) _)) = _
    rw [hgive]
    exact congrArg _ (flagJoints_self hj)
  · rintro c cause s (⟨rfl, rfl, h⟩ | ⟨rfl, rfl, hs, ht⟩ | ⟨rfl, rfl, hs, ht⟩ | ⟨rfl, rfl, ht⟩ | ⟨rfl, rfl, ht⟩)
    · have hgive : execEstopChange s.tracker.set.estopPol s = .next (settle ({ s with
          pins := { s.pins with estop := s.tracker.set.estopPol }
          monitor := { s.monitor with estop := true } }, [.trip .estop])) := by
        have hread : readPin s.tracker.set.estopPol s.tracker.set.estopPol = true := by simp [readPin]
        rw [execEstopChange, hread, giveEstop, if_neg (fun he => by cases he.trans h)]
        rfl
      exact ⟨_, hgive, tripsInto_settle .estop { s with
        pins := { s.pins with estop := s.tracker.set.estopPol }, monitor := { s.monitor with estop := true } }⟩
    · refine ⟨_, congrArg Host.Outcome.next (if_pos ?_),
        tripsInto_settle .feedTimeout (s.onFormer fun f => { f with timer := none })⟩
      simp [phaseRuns, running, hs, Option.isSome_iff_ne_none, ht]
    · refine ⟨_, congrArg Host.Outcome.next (if_pos ?_),
        tripsInto_settle .bladeJam (s.onFormer fun f => { f with timer := none })⟩
      simp [phaseRuns, running, hs, Option.isSome_iff_ne_none, ht]
    · exact ⟨_, congrArg Host.Outcome.next (if_pos (Option.isSome_iff_ne_none.mpr ht)),
        tripsInto_settle .webBreak (s.onMonitor fun m => { m with breakTimer := none })⟩
    · exact ⟨_, congrArg Host.Outcome.next (if_pos (Option.isSome_iff_ne_none.mpr ht)),
        tripsInto_settle .hoodFault (s.onSup fun v => { v with hoodTimer := none })⟩

end Sys2Proof.Proofs
end

section
/-! SUPPORT. An infeed count at a bridge that ends with a panel in formation (R62, R78). -/

namespace Sys2Proof.Proofs

open Sys2Proof.Machine Sys2Proof.Safety

/-- The joint due whose span has just passed when the first count has been taken. -/
def passedDue : Pos := -BitVec.ofNat 32 (State.reset.roll.geo.lDf + State.reset.roll.geo.j)

/-- A RUNNING line without orders, its former in BRIDGE with a panel in formation: the bridge waits for its joint due
alone. -/
def bridgeWithPanel : State :=
  { State.reset with
    sup := { State.reset.sup with line := .running }
    former := { State.reset.former with state := .bridge, panel := some 1, bridgeTarget := some 0 }
    dose := { State.reset.dose with tunnelRecipe := some 0 }
    settledReported := true
    roll := { State.reset.roll with planner := { State.reset.roll.planner with jointDue := some passedDue } } }

/-- The bridge ends and its former stays IDLE: with work in formation the former is at no boundary (R62). -/
theorem idle_of_bridgeWithPanel {t : State} (h : exec (.infeedCount true false) bridgeWithPanel = .next t) :
    t.former.state = .idle := by
  obtain rfl := Host.Outcome.next.inj h
  decide

/-- Refutes O45: the clause of a bridge that ends lets the former hold a panel.  The boundary test then does nothing
(R62), where the statement has an empty queue hold the line STARVED.  What the clause lacks is that no panel is in formation
during a bridge, as where `boundaryTest` starts one. -/
theorem not_infeedCount : ¬ Obligations.InfeedCount := by
  unfold Obligations.InfeedCount
  intro h
  obtain ⟨-, hcount⟩ := h true false bridgeWithPanel
  obtain ⟨t, ht, -, -, -, -, -, -, -, -, -, -, hbridge, -⟩ := hcount (Or.inl ⟨by decide, rfl⟩)
  obtain ⟨-, -, -, hboundary⟩ := hbridge 0 passedDue rfl rfl rfl rfl (by decide) rfl rfl rfl rfl
  obtain ⟨hempty, -⟩ := hboundary rfl ⟨rfl, rfl⟩
  obtain ⟨⟨hheld, -⟩, -⟩ := hempty rfl
  have hidle := idle_of_bridgeWithPanel ht
  rw [hheld] at hidle
  exact absurd hidle (by decide)

end Sys2Proof.Proofs
end

section
/-! SUPPORT. What the former carries from length to length and from step to step (R60, R61) and from a trip to the next
blade home (R76): the three ways in which a signal changes it, and that every signal, cascade and command keeps the carries
below their denominators. -/

namespace Sys2Proof.Machine

open Sys2Proof.Safety

/-- The former's carries and their scales, and the retraction owed after a trip with the blade's filtered level. -/
structure Gauge where
  cIn : Nat
  cOut : Nat
  set : FormerSettings
  retract : Bool
  home : Bool

def gauge (s : State) : Gauge :=
  ⟨s.former.cIn, s.former.cOut, s.former.set, s.former.retractAfterTrip, s.tracker.bladeHome.level⟩

/-- What a signal may do to it. -/
inductive Turn (v : Gauge) : Gauge → Prop
  /-- A length is converted (R60). -/
  | length (l : Nat) : Turn v { v with cIn := carryAfter v.set v.cIn l }
  /-- A step's width advances the trigger (R61). -/
  | width (w : Nat) : Turn v { v with cOut := (w * v.set.outNum + v.cOut) % v.set.outDen }
  /-- A trip aborts the former's work (R76). -/
  | aborted : Turn v { v with retract := v.retract || !v.home }

abbrev Turns (v w : Gauge) : Prop := Relation.ReflTransGen Turn v w

section
variable {v : Gauge} {s : State}

theorem gauge_of_production {s t : State} (h : production t = production s) : gauge t = gauge s := by
  rw [gauge, gauge, production_former h, production_tracker h]

theorem turns_of_production {s t : State} (h : production t = production s) (hv : Turns v (gauge s)) :
    Turns v (gauge t) := by
  rwa [gauge_of_production h]

theorem turns_ite {c : Prop} [Decidable c] {a b : State} (ha : Turns v (gauge a)) (hb : Turns v (gauge b)) :
    Turns v (gauge (if c then a else b)) := by
  split
  · exact ha
  · exact hb

/-! ### The tracker and the queue -/

theorem gauge_onFormingPanel (f : PanelRec → PanelRec) (s : State) : gauge (onFormingPanel f s) = gauge s := by
  unfold onFormingPanel; split <;> rfl

theorem turns_onFormingPanel (f : PanelRec → PanelRec) (h : Turns v (gauge s)) :
    Turns v (gauge (onFormingPanel f s)) := by
  rwa [gauge_onFormingPanel]

theorem turns_flagJoints (h : Turns v (gauge s)) : Turns v (gauge (flagJoints s)) :=
  turns_ite (turns_onFormingPanel _ h) h

theorem gauge_markArrivals (g : RollGeometry) (p : Pos) (es : List Joint) (s : State) :
    gauge (markArrivals g p es s) = gauge s := by
  induction es generalizing s with
  | nil => rfl
  | cons e es ih =>
    have hm : gauge (markJoint s) = gauge s := by unfold markJoint; dsimp only; split <;> rfl
    rw [markArrivals, ih]
    split
    · exact hm
    · rfl

theorem gauge_closePanel (n : BitVec 16) (a : Bool) (s : State) : gauge (closePanel n a s) = gauge s :=
  (gauge_of_production (production_cutSeesEnd _)).trans rfl

theorem gauge_queueReport (r : PanelRec) (s : State) : gauge (queueReport r s) = gauge s := by
  unfold queueReport; dsimp only; split <;> rfl

theorem gauge_passKnife (s : State) : gauge (passKnife s).1 = gauge s := by
  unfold passKnife
  split
  · rfl
  · split
    · dsimp only
      split
      · unfold panelAtKnife
        split
        · rfl
        · split
          · exact gauge_queueReport _ _
          · rfl
      · rfl
    · rfl

theorem gauge_activate (s : State) : gauge (activate s) = gauge s := by
  rw [gauge, gauge, activate_former, activate_tracker]

theorem gauge_retire (k : Nat) (s : State) : gauge (retire k s) = gauge s := by unfold retire; split <;> rfl

theorem gauge_countPanel (s : State) : gauge (countPanel s) = gauge s := by
  unfold countPanel; dsimp only; split
  · rfl
  · split
    · exact gauge_retire _ _
    · split
      · exact gauge_retire _ _
      · rfl

theorem gauge_countAborted (s : State) : gauge (countAborted s) = gauge s := by
  unfold countAborted; split
  · rfl
  · split
    · exact gauge_retire _ _
    · rfl

/-! ### The line -/

theorem turns_leaveBoundaryHold (h : Turns v (gauge s)) : Turns v (gauge (leaveBoundaryHold s)) := by
  unfold leaveBoundaryHold; split
  · exact turns_of_production (production_withdrawCauses _) h
  · exact h

theorem turns_enterStopped (h : Turns v (gauge s)) : Turns v (gauge (enterLine .stopped s).1) := by
  unfold enterLine
  dsimp only
  refine turns_leaveBoundaryHold (turns_of_production (s := s) ?_ h)
  rw [production_commandHood, production_setLine, production_onSup]

theorem turns_enterLine (l : LineState) (h : Turns v (gauge s)) : Turns v (gauge (enterLine l s).1) := by
  by_cases hl : l = .stopped
  · subst hl; exact turns_enterStopped h
  · exact turns_of_production (production_enterLine s hl) h

theorem turns_stopCheck (h : Turns v (gauge s)) : Turns v (gauge (stopCheck s).1) := by
  unfold stopCheck; split
  · exact turns_enterLine .stopped h
  · exact h

/-! ### Lengths and strokes -/

theorem turns_beginLength (l : Nat) (h : Turns v (gauge s)) : Turns v (gauge (beginLength l s)) := h.tail (.length l)

theorem turns_advanceTrigger (st : StepRec) (h : Turns v (gauge s)) : Turns v (gauge (s.onFormer (advanceTrigger st))) :=
  h.tail (.width st.width)

theorem turns_enterTail (h : Turns v (gauge s)) : Turns v (gauge (enterTail s)) := turns_beginLength _ h

theorem turns_enterFlat (i : Nat) (st : StepRec) (h : Turns v (gauge s)) : Turns v (gauge (enterFlat i st s)) :=
  turns_beginLength _ h

theorem turns_enterStep (i : Nat) (h : Turns v (gauge s)) : Turns v (gauge (enterStep i s)) := by
  unfold enterStep; split
  · exact turns_enterTail h
  · split
    · exact h
    · exact turns_enterFlat _ _ h

theorem turns_recordLate (h : Turns v (gauge s)) : Turns v (gauge (recordLate s)) :=
  turns_ite (turns_onFormingPanel _ h) h

theorem turns_enterFeed (st : StepRec) (h : Turns v (gauge s)) : Turns v (gauge (enterFeed st s)) := by
  have hs := turns_beginLength (strokeLength st s.former.rep) h
  exact turns_ite (turns_onFormingPanel _ hs) hs

theorem turns_startStroke (h : Turns v (gauge s)) : Turns v (gauge (startStroke s).1) := by
  unfold startStroke; split
  · exact h
  · exact turns_enterFeed _ (turns_recordLate (turns_advanceTrigger _ h))

theorem turns_afterStroke (h : Turns v (gauge s)) : Turns v (gauge (afterStroke s)) := by
  unfold afterStroke; split
  · split
    · exact h
    · split
      · exact turns_enterTail h
      · split
        · exact h
        · exact turns_enterFlat _ _ h
  · exact h

theorem turns_endRetract (h : Turns v (gauge s)) : Turns v (gauge (endRetract s).1) := by
  unfold endRetract; split
  · exact h
  · have hs := turns_afterStroke (turns_onFormingPanel (fun r => { r with formed := bump16 r.formed })
      (s := s.onFormer fun f => { f with timer := none }) h)
    dsimp only
    split
    · exact hs
    · split
      · exact turns_startStroke hs
      · exact hs

theorem turns_noteLate (h : Turns v (gauge s)) : Turns v (gauge (noteLate s)) := turns_ite h h

/-! ### Boundaries -/

theorem turns_holdFor (r : HoldReason) (h : Turns v (gauge s)) : Turns v (gauge (holdFor r s)) :=
  turns_of_production (production_setCauses _ _) h

theorem turns_restIdle (h : Turns v (gauge s)) : Turns v (gauge (restIdle s)) :=
  turns_of_production (production_withdrawCauses _) h

theorem turns_startBridge (i : Fin 4) (h : Turns v (gauge s)) : Turns v (gauge (startBridge i s)) :=
  turns_of_production (production_withdrawCauses _) h

theorem turns_startPanel (h : Turns v (gauge s)) : Turns v (gauge (startPanel s)) := by
  have ha : Turns v (gauge (activate (withdrawCauses s))) := by
    rw [gauge_activate]
    exact turns_of_production (production_withdrawCauses s) h
  unfold startPanel
  dsimp only
  split
  · exact ha
  · next o _ =>
    have hc := turns_of_production (production_cutSeesStart (writeMark .panelStart
      (some (activate (withdrawCauses s)).tracker.nextPanel) (beginPanel o (activate (withdrawCauses s))))) ha
    exact turns_beginLength _ hc

theorem turns_boundaryTest (h : Turns v (gauge s)) : Turns v (gauge (boundaryTest s).1) := by
  unfold boundaryTest; split
  · exact h
  · split
    · exact turns_holdFor _ (turns_ite h h)
    · split
      · split
        · exact turns_holdFor _ h
        · split
          · exact turns_startBridge _ h
          · exact turns_restIdle h
      · split
        · exact turns_holdFor _ h
        · split
          · exact turns_startPanel h
          · exact turns_restIdle h

theorem turns_endPanel (h : Turns v (gauge s)) : Turns v (gauge (endPanel s).1) := by
  unfold endPanel; split
  · exact h
  · next n _ =>
    have hc : Turns v (gauge (countPanel (closePanel n false s))) := by
      rwa [gauge_countPanel, gauge_closePanel]
    exact hc

theorem turns_bridgeTest (h : Turns v (gauge s)) : Turns v (gauge (bridgeTest s).1) := by
  unfold bridgeTest; split <;> exact h

theorem turns_endFollow (h : Turns v (gauge s)) : Turns v (gauge (endFollow s).1) := by
  unfold endFollow; split
  · exact turns_enterStep 0 h
  · split
    · split
      · exact turns_beginLength _ h
      · exact turns_enterStep _ h
    · exact h
  · exact turns_endPanel h
  all_goals exact h

theorem turns_formerTest (h : Turns v (gauge s)) : Turns v (gauge (formerTest s).1) := by
  unfold formerTest; split
  case h_1 | h_2 | h_3 =>
    split
    · exact turns_endFollow h
    · exact h
  case h_4 =>
    split
    · exact turns_startStroke h
    · exact h
  case h_5 => exact turns_ite (turns_noteLate h) (turns_noteLate h)
  case h_6 | h_7 => exact turns_noteLate h
  case h_8 =>
    split
    · exact turns_endRetract h
    · exact turns_noteLate h
  case h_9 => exact turns_ite h h
  all_goals exact h

/-! ### Run, pause, abort -/

theorem turns_formerRun (h : Turns v (gauge s)) : Turns v (gauge (formerRun s).1) := by
  unfold formerRun; split
  · exact h
  · split
    · exact h
    · split
      · rw [resumeWork_eq]
        split
        · exact turns_startStroke h
        · exact h
      · exact h
    all_goals exact h

theorem turns_formerPause (h : Turns v (gauge s)) : Turns v (gauge (formerPause s).1) := by
  unfold formerPause; split
  case h_6 => exact turns_leaveBoundaryHold h
  all_goals exact h

theorem gauge_abortPanel (s : State) : gauge (abortPanel s) = gauge s := by
  unfold abortPanel; split
  · rfl
  · rw [gauge_countAborted, gauge_closePanel]

theorem gauge_abortBridge (s : State) : gauge (abortBridge s) = gauge s := by
  unfold abortBridge; split <;> rfl

theorem turns_formerAbort (h : Turns v (gauge s)) : Turns v (gauge (formerAbort s).1) := by
  have hb : gauge (abortBridge (abortPanel s)) = gauge s := by rw [gauge_abortBridge, gauge_abortPanel]
  have ha : Turns v { gauge (abortBridge (abortPanel s)) with
      retract := (gauge (abortBridge (abortPanel s))).retract || !s.tracker.bladeHome.level } := by
    rw [hb]
    exact h.tail .aborted
  exact turns_of_production (production_withdrawCauses _) ha

/-! ### Signals and cascades -/

theorem turns_handle (g : Sig) (h : Turns v (gauge s)) : Turns v (gauge (handle g s).1) := by
  by_cases hg : apartSignal g = true
  · exact turns_of_production (production_handle s hg) h
  cases g with
  | stopCheck => exact turns_stopCheck h
  | former => exact turns_formerTest h
  | boundary => exact turns_boundaryTest h
  | formerRun => exact turns_formerRun h
  | formerPause => exact turns_formerPause h
  | abort => exact turns_formerAbort h
  | bridge => exact turns_bridgeTest h
  | joints =>
    have hj : gauge (handle .joints s).1 = gauge s := gauge_markArrivals _ _ _ _
    rwa [hj]
  | jointsPast => exact turns_flagJoints h
  | track x =>
    have ht : gauge (handle (.track x) s).1 = gauge s := by
      have hb : (addJoint x true s).tracker.bladeHome = s.tracker.bladeHome := by
        unfold addJoint; dsimp only [State.onTracker]; split <;> rfl
      show gauge (addJoint x true s) = _
      rw [gauge, gauge, hb]
      rfl
    rwa [ht]
  | knife =>
    have hk : gauge (handle .knife s).1 = gauge s := gauge_passKnife s
    rwa [hk]
  | _ => exact absurd rfl hg

theorem turns_settle (w : Work) : Turns (gauge w.1) (gauge (settle w)) :=
  settle_keeps (P := fun s => Turns (gauge w.1) (gauge s)) (fun _ => turns_flagJoints) (fun g _ => turns_handle g) w .refl

end

/-! ### What they keep -/

theorem Turn.carries {v w : Gauge} (m : Turn v w) (h : v.cIn < v.set.inDen ∧ v.cOut < v.set.outDen) :
    w.cIn < w.set.inDen ∧ w.cOut < w.set.outDen := by
  obtain ⟨hin, hout⟩ := h
  cases m with
  | length l => exact ⟨Nat.mod_lt _ (Nat.zero_lt_of_lt hin), hout⟩
  | width w => exact ⟨hin, Nat.mod_lt _ (Nat.zero_lt_of_lt hout)⟩
  | aborted => exact ⟨hin, hout⟩

theorem Turns.carries {v w : Gauge} (m : Turns v w) (h : v.cIn < v.set.inDen ∧ v.cOut < v.set.outDen) :
    w.cIn < w.set.inDen ∧ w.cOut < w.set.outDen := by
  induction m with
  | refl => exact h
  | tail _ m ih => exact m.carries ih

/-- With the blade home no abort leaves a retraction owed (R76). -/
theorem Turns.retract {v w : Gauge} (m : Turns v w) (hr : v.retract = false) (hh : v.home = true) :
    w.retract = false ∧ w.home = true := by
  induction m with
  | refl => exact ⟨hr, hh⟩
  | tail _ m ih =>
    obtain ⟨ihr, ihh⟩ := ih
    cases m with
    | length | width => exact ⟨ihr, ihh⟩
    | aborted => exact ⟨by simp [ihr, ihh], ihh⟩

/-! ### Commands -/

/-- The law of the carries is one of the gauge. -/
theorem carries_of_gauge {s t : State} (h : gauge t = gauge s) (hs : Carries s) : Carries t := by
  unfold Carries at hs ⊢
  rw [show t.former.cIn = s.former.cIn from congrArg Gauge.cIn h,
    show t.former.cOut = s.former.cOut from congrArg Gauge.cOut h,
    show t.former.set = s.former.set from congrArg Gauge.set h]
  exact hs

theorem carries_of_production {s t : State} (h : production t = production s) (hs : Carries s) : Carries t :=
  carries_of_gauge (gauge_of_production h) hs

theorem carries_ite {c : Prop} [Decidable c] {a b : State} (ha : Carries a) (hb : Carries b) :
    Carries (if c then a else b) := by
  split
  · exact ha
  · exact hb

theorem carries_settle {w : Work} (h : Carries w.1) : Carries (settle w) := (turns_settle w).carries h

theorem carries_settle_signals {s : State} {gs : List Sig} (h : Carries s) : Carries (settle (s, gs)) := carries_settle h

theorem carries_settle_production {s : State} {w : Work} (hw : production w.1 = production s) (h : Carries s) :
    Carries (settle w) := carries_settle (carries_of_production hw h)

theorem carries_serve {kind : Byte} {auth : Option Port} {lengthOk : Nat → Bool}
    {block : Port → List Byte → State → State × Answer}
    (hb : ∀ p pl {s : State}, Carries s → Carries (block p pl s).1) {f : Frame} {s : State} (h : Carries s) :
    Carries (serve kind auth lengthOk block f s) := by
  unfold serve
  dsimp only
  split
  · exact h
  · split
    · exact h
    · split
      · exact hb _ _ h
      · exact h

section
variable (p : Port) (pl : List Byte) {s : State}

theorem carries_enterLine (l : LineState) (h : Carries s) : Carries (enterLine l s).1 :=
  Turns.carries (turns_enterLine (v := gauge s) l .refl) h

theorem carries_lineStart (h : Carries s) : Carries (lineStart p pl s).1 := by
  have hr : ∀ i, Carries (recipeForRun i s) := fun i => carries_ite h h
  unfold lineStart; split
  · exact h
  · split
    · exact carries_settle (carries_enterLine _ (hr _))
    · exact h

theorem carries_lineStop (h : Carries s) : Carries (lineStop p pl s).1 := by
  have hs : Carries (settle (stopNow s)) := carries_settle_production (production_stopNow s) h
  unfold lineStop; split
  · exact h
  · unfold stopLine; split
    case h_4 | h_5 => exact hs
    case h_6 | h_7 =>
      split
      · exact h
      · exact hs
    all_goals exact h

/-- A line reset clears both carries and keeps their scales (R57). -/
theorem carries_lineReset (h : Carries s) : Carries (lineReset p pl s).1 := by
  unfold lineReset; split
  · have hc : Carries (lineResetState s) := ⟨Nat.zero_lt_of_lt h.1, Nat.zero_lt_of_lt h.2⟩
    have hz : Carries (resetZones (lineResetState s)) := carries_of_production production_resetZones hc
    exact carries_of_production (production_raise _ .lineResetDone (bytes2 (panelsDiscarded s))) hz
  · exact h

theorem carries_zoneSetRequest (h : Carries s) : Carries (zoneSetRequest p pl s).1 := by
  unfold zoneSetRequest; split
  · exact h
  · exact carries_settle_production (production_applyZoneSet pl) h

theorem carries_clearLine (h : Carries s) : Carries (clearLine s).1 := by
  unfold clearLine; split
  · dsimp only [followedBy]
    exact carries_enterLine .stopped h
  · exact h

theorem carries_faultClear (h : Carries s) : Carries (faultClear p pl s).1 := by
  have hz : Carries (zonesInOrder.foldl clearZone s) :=
    carries_of_production (production_foldl s (fun z u => production_clearZone z) _) h
  unfold faultClear; split
  · exact h
  · dsimp only [okWith]
    exact carries_settle (carries_clearLine hz)

theorem denominators_pos {c : FormerSettings} (h : formerSettingsOk c = true) : 0 < c.inDen ∧ 0 < c.outDen := by
  simp only [formerSettingsOk, Bool.and_eq_true, decide_eq_true_eq] at h
  obtain ⟨⟨⟨-, hin⟩, -⟩, hout⟩ := h
  exact ⟨hin, hout⟩

/-- New scales are taken with both carries at 0 only (R58). -/
theorem carries_formerSet (h : Carries s) : Carries (formerSet p pl s).1 := by
  unfold formerSet; dsimp only; split
  · exact h
  · next hok =>
    obtain ⟨hin, hout⟩ := denominators_pos (Bool.not_eq_false _ ▸ hok)
    split
    · exact h
    · split
      · exact h
      · next hscale =>
        show s.former.cIn < (formerSettingsOf pl).inDen ∧ s.former.cOut < (formerSettingsOf pl).outDen
        cases hs : sameScales (formerSettingsOf pl) s.former.set with
        | true =>
          simp only [sameScales, Bool.and_eq_true, decide_eq_true_eq] at hs
          obtain ⟨⟨⟨-, hinDen⟩, -⟩, houtDen⟩ := hs
          rw [hinDen, houtDen]
          exact h
        | false =>
          have hzero : s.former.cIn = 0 ∧ s.former.cOut = 0 := by
            simpa [hs] using hscale
          rw [hzero.1, hzero.2]
          exact ⟨hin, hout⟩

theorem carries_onFilter (sw : Switch) (f : Filter → Filter) (h : Carries s) : Carries (onFilter sw f s) := h

theorem carries_inputSet (h : Carries s) : Carries (inputSet p pl s).1 := by
  unfold inputSet; dsimp only; split
  · exact h
  · split
    · exact h
    · exact carries_settle_production (production_giveEstop _) h

theorem carries_orderQueue (h : Carries s) : Carries (orderQueue p pl s).1 := by
  unfold orderQueue; split
  · exact h
  · split
    · exact h
    · split
      · exact h
      · split
        · exact h
        · exact carries_settle_signals h

theorem carries_orderCancel (h : Carries s) : Carries (orderCancel p pl s).1 := by
  unfold orderCancel; split
  · exact h
  · split
    · exact h
    · split
      · split
        · exact h
        · split
          · exact h
          · exact carries_settle_signals (carries_of_gauge (gauge_retire 1 s) h)
      · exact carries_settle_signals (carries_ite h h)

theorem carries_reportTake (h : Carries s) : Carries (reportTake p pl s).1 := by
  unfold reportTake; split
  · exact h
  · refine carries_settle ?_
    unfold makeWaitingReport; split
    · exact h
    · split
      · exact carries_of_gauge (gauge_queueReport _ _) h
      · exact h

theorem carries_rollStatus (h : Carries s) : Carries (rollStatus p pl s).1 := by
  unfold rollStatus; split
  · exact h
  · split
    · exact h
    · exact carries_settle_production (by simp) h

theorem carries_spliceArm (h : Carries s) : Carries (spliceArm p pl s).1 := by
  unfold spliceArm; split
  · exact h
  · split
    · exact h
    · exact carries_settle_signals h

theorem carries_spliceCancel (h : Carries s) : Carries (spliceCancel p pl s).1 := by
  unfold spliceCancel; split
  case h_1 | h_2 | h_3 => exact carries_settle_production (production_withdrawSplice s none) h
  case h_4 => exact h
  case h_5 => split <;> exact h

theorem carries_cutRequest (h : Carries s) : Carries (cutRequest p pl s).1 := by
  unfold cutRequest; split
  · exact h
  · split
    · unfold cutNextEnd; split
      · exact h
      · exact carries_of_production (production_chooseTarget _) h
    · have hflag : Carries (flagCutThrough (panelAtCut s) s) := by
        unfold flagCutThrough; split <;> exact h
      unfold cutForce; split
      · exact h
      · exact hflag

theorem carries_shiftCells (h : Carries s) : Carries (shiftCells s) := by
  have hj : ∀ c, Carries (judgeCell c s) := by
    intro c; unfold judgeCell; split
    · unfold offerCell; split <;> exact h
    · exact h
  exact carries_ite (hj _) h

theorem carries_portLost (h : Carries s) : Carries (portLost p s).1 := by
  cases p
  · exact carries_of_production (production_stopNow s) h
  · exact h
  · exact carries_of_production (production_withdrawCut s) h

theorem carries_takeLevel (sw : Switch) (h : Carries s) : Carries (takeLevel sw s) := by
  unfold takeLevel; dsimp only; split
  · exact h
  · refine carries_settle ?_
    cases sw <;> dsimp only [edgeEffect] <;> split
    case hoodUp.isFalse | hoodDown.isTrue => exact carries_of_production (production_deriveHood _) h
    case jointDetector.isTrue =>
      have ho : Carries
          (offerCapture s.tracker.pIn (onFilter .jointDetector (fun _ => ⟨reading s .jointDetector, none⟩) s)) :=
        carries_of_production (production_offerCapture _ _) (carries_onFilter .jointDetector _ h)
      exact ho
    all_goals exact h

end

/-- Every command with all that follows from it keeps the carries below their denominators (R60, R61). -/
theorem carries_exec {c : Instr} {s t : State} (hs : Carries s) (h : exec c s = .next t) : Carries t := by
  have same : ∀ {block : Port → List Byte → State → State × Answer},
      (∀ p pl {u : State}, production (block p pl u).1 = production u) →
      ∀ p pl {u : State}, Carries u → Carries (block p pl u).1 :=
    fun hb p pl _ hu => carries_of_production (hb p pl) hu
  cases c
  case incompleteFrame p bytes =>
    simp only [exec, execIncompleteFrame] at h
    split at h <;> cases h
    exact hs
  case unknownKindFrame kind f =>
    simp only [exec, execUnknownKindFrame] at h
    split at h <;> cases h
    split <;> exact hs
  all_goals obtain rfl := Host.Outcome.next.inj h
  case deviceReset => exact carries_powerOn s.pins
  case emptyTransaction p => exact hs
  case nop f => exact carries_serve (fun _ _ _ h => h) hs
  case lineView | zoneView | formerView | queueView | panelView | mapView | spliceView | portView =>
    exact carries_serve (same production_statusRead) hs
  case eventTake f => exact carries_serve (same production_eventTake) hs
  case routeSet f => exact carries_serve (same production_routeSet) hs
  case floorSet f => exact carries_serve (same production_floorSet) hs
  case presenceSet f => exact carries_serve (same production_presenceSet) hs
  case lineStart f => exact carries_serve carries_lineStart hs
  case lineStopImmediate | lineStopEndOfPanel => exact carries_serve carries_lineStop hs
  case lineReset f => exact carries_serve carries_lineReset hs
  case speedSet f => exact carries_serve (block := speedSet) (fun _ _ _ h => h) hs
  case recipeSet f => exact carries_serve (same production_recipeSet) hs
  case zoneSet | zoneDisable | zoneArm | zoneEnable => exact carries_serve carries_zoneSetRequest hs
  case monitorSetZone | monitorSetLine => exact carries_serve (same production_monitorSet) hs
  case faultClear f => exact carries_serve carries_faultClear hs
  case formerSet f => exact carries_serve carries_formerSet hs
  case tunnelSet f => exact carries_serve (same production_tunnelSet) hs
  case motionSet f => exact carries_serve (same production_motionSet) hs
  case inputSet f => exact carries_serve carries_inputSet hs
  case rollGeometrySet f => exact carries_serve (same production_rollGeometrySet) hs
  case patternBegin f =>
    refine carries_serve (fun _ _ _ h => ?_) hs
    unfold patternBegin; dsimp only; split
    · exact h
    · split
      · exact h
      · split <;> exact h
  case patternSteps f =>
    refine carries_serve (fun _ _ _ h => ?_) hs
    unfold patternSteps; split
    · exact h
    · dsimp only; split <;> exact h
  case patternEnd f =>
    refine carries_serve (fun _ _ _ h => ?_) hs
    unfold patternEnd; split
    · exact h
    · dsimp only; split <;> exact h
  case patternDelete f =>
    refine carries_serve (fun _ _ _ h => ?_) hs
    unfold patternDelete; split
    · exact h
    · dsimp only; split
      · exact h
      · split <;> exact h
      · exact h
  case orderQueue f => exact carries_serve carries_orderQueue hs
  case orderCancel f => exact carries_serve carries_orderCancel hs
  case reportTake f => exact carries_serve carries_reportTake hs
  case queueLowSet f =>
    refine carries_serve (fun _ _ _ h => ?_) hs
    unfold queueLowSet; split <;> exact h
  case rollStatus f => exact carries_serve carries_rollStatus hs
  case spliceArm f => exact carries_serve carries_spliceArm hs
  case spliceForce f => exact carries_serve (same production_spliceForce) hs
  case spliceCancel f => exact carries_serve carries_spliceCancel hs
  case cutRequestNextEnd | cutRequestForce => exact carries_serve carries_cutRequest hs
  case cutCancel f => exact carries_serve (same production_cutCancel) hs
  case presenceExpiry p =>
    exact carries_ite (carries_settle (carries_portLost p (s := presenceLost p s) hs)) hs
  case infeedCount a b => exact carries_ite hs (carries_settle_signals hs)
  case outfeedCount a b =>
    dsimp only
    split
    · exact hs
    · exact carries_settle (carries_of_production (production_cutCompare _) (carries_shiftCells hs))
    · exact carries_settle hs
  case switchPinChange sw high =>
    split
    · exact hs
    · exact carries_ite (carries_takeLevel sw (s := s.onPins (setPin sw high)) hs) hs
  case filterExpiry sw => exact carries_ite (carries_takeLevel sw hs) hs
  case estopChange high => exact carries_settle_production (production_giveEstop _) hs
  case feedTimeout | bladeJam | breakTimerExpiry | hoodTimerExpiry | tuckEnd | pressEnd =>
    exact carries_ite (carries_settle_signals hs) hs
  case hoodDelayExpiry => exact carries_ite (carries_settle_production (production_commandHood _ _) hs) hs
  case probeSample z n => exact carries_settle_production (by simp) hs
  case regulationPeriod z => exact carries_settle_production (by simp) hs
  case valveWindowStart | valveClose | splicePulseEnd => exact hs
  case doseSample => exact carries_of_production (production_doseSample _) hs
  case speedUpdate =>
    exact carries_of_production (production_speedSteps _) (carries_settle_production (production_speedUpdate s) hs)
  case probeCheckTimer =>
    dsimp only
    split
    · exact hs
    · split
      · exact carries_of_production (production_beginSearch _) hs
      · exact hs
  case cutPulseEnd => exact carries_ite hs hs

/-- A millisecond that passes reaches no carry; every other step is a command's. -/
theorem carries_step {s t : State} (hs : Carries s) (h : step s = .next t) : Carries t := by
  rcases step_cases h with ⟨-, rfl⟩ | ⟨-, c, -, hc⟩ | ⟨c, rest, -, hc⟩
  · exact hs
  · exact carries_exec (s := s.nextFree) hs hc
  · exact carries_exec (s := s.withPending rest) hs hc

end Sys2Proof.Machine

namespace Sys2Proof.Proofs

open Sys2Proof.Machine Sys2Proof.Safety

/-- Settles O56: every change of a carry leaves a remainder, and new scales are taken at carries 0. -/
theorem carriesKept : Obligations.CarriesKept := fun _ _ => carries_step

end Sys2Proof.Proofs
end

section
/-! SUPPORT. FORMER_SET on its own port: the settings its payload spells, their ranges, and the block's four answers
(R58). -/

namespace Sys2Proof.Machine

open Sys2Proof.Safety

/-- The settings of a complete payload. -/
theorem formerSettingsOf_fields {pl : List Byte} (h : pl.length = 15) :
    formerSettingsOf pl =
      ⟨field pl 0 1, field pl 1 2, field pl 3 2, field pl 5 2, field pl 7 2, field pl 9 2, field pl 11 2, field pl 13 2⟩ := by
  rw [formerSettingsOf, field_u8 pl 0 (by omega), field_u16 pl 1 (by omega), field_u16 pl 3 (by omega),
    field_u16 pl 5 (by omega), field_u16 pl 7 (by omega), field_u16 pl 9 (by omega), field_u16 pl 11 (by omega),
    field_u16 pl 13 (by omega)]

theorem formerSettingsOf_byte (pl : List Byte) : (formerSettingsOf pl).f ≤ 255 := by
  show (pl.getD 0 0).toNat ≤ 255
  omega

/-- The ranges of FORMER_SET; the first field is a byte (R58). -/
theorem formerSettingsOk_iff {c : FormerSettings} (hf : c.f ≤ 255) :
    formerSettingsOk c = true ↔
      1 ≤ c.f ∧ (10 ≤ c.tuck ∧ c.tuck ≤ 500) ∧ (10 ≤ c.retractAllow ∧ c.retractAllow ≤ 1000) ∧
        (50 ≤ c.retractTimeout ∧ c.retractTimeout ≤ 5000) ∧ c.retractAllow ≤ c.retractTimeout ∧
        1 ≤ c.inNum ∧ 1 ≤ c.inDen ∧ 1 ≤ c.outNum ∧ 1 ≤ c.outDen := by
  simp only [formerSettingsOk, Bool.and_eq_true, within_eq_true, decide_eq_true_eq, hf, and_true, and_assoc]

theorem webEmpty_iff (s : State) : webEmpty s = true ↔ Bare s := by
  simp only [webEmpty, Bare, Bool.and_eq_true, decide_eq_true_eq, List.isEmpty_iff, and_assoc]

theorem sameScales_iff (a b : FormerSettings) :
    sameScales a b = true ↔ a.inNum = b.inNum ∧ a.inDen = b.inDen ∧ a.outNum = b.outNum ∧ a.outDen = b.outDen := by
  simp only [sameScales, Bool.and_eq_true, decide_eq_true_eq, and_assoc]

section
variable {p : Port} {pl : List Byte} {s : State}

theorem formerSet_badValue (h : formerSettingsOk (formerSettingsOf pl) ≠ true) :
    formerSet p pl s = refuse .badValue s := if_pos (Bool.eq_false_iff.mpr h)

theorem formerSet_inRange (h : formerSettingsOk (formerSettingsOf pl) = true) :
    formerSet p pl s =
      if webEmpty s = false then refuse .wrongState s
      else if sameScales (formerSettingsOf pl) s.former.set = false ∧ (s.former.cIn ≠ 0 ∨ s.former.cOut ≠ 0) then
        refuse .wrongState s
      else okWith [] (s.onFormer fun f => { f with set := formerSettingsOf pl }) :=
  if_neg (by rw [h]; decide)

/-- On a line at work, or with a panel or a mark (R58). -/
theorem formerSet_notBare (h : formerSettingsOk (formerSettingsOf pl) = true) (hb : ¬Bare s) :
    formerSet p pl s = refuse .wrongState s :=
  (formerSet_inRange h).trans (if_pos (Bool.eq_false_iff.mpr fun he => hb ((webEmpty_iff s).mp he)))

theorem formerSet_bare (h : formerSettingsOk (formerSettingsOf pl) = true) (hb : Bare s) :
    formerSet p pl s =
      if sameScales (formerSettingsOf pl) s.former.set = false ∧ (s.former.cIn ≠ 0 ∨ s.former.cOut ≠ 0) then
        refuse .wrongState s
      else okWith [] (s.onFormer fun f => { f with set := formerSettingsOf pl }) :=
  (formerSet_inRange h).trans (if_neg (by rw [(webEmpty_iff s).mpr hb]; decide))

/-- A change of scale that a carry forbids. -/
theorem formerSet_unsettled (h : formerSettingsOk (formerSettingsOf pl) = true) (hb : Bare s)
    (hs : ¬sameScales (formerSettingsOf pl) s.former.set = true) (hc : ¬(s.former.cIn = 0 ∧ s.former.cOut = 0)) :
    formerSet p pl s = refuse .wrongState s :=
  (formerSet_bare h hb).trans (if_pos ⟨Bool.eq_false_iff.mpr hs, not_and_or.mp hc⟩)

theorem formerSet_taken (h : formerSettingsOk (formerSettingsOf pl) = true) (hb : Bare s)
    (hs : sameScales (formerSettingsOf pl) s.former.set = true ∨ (s.former.cIn = 0 ∧ s.former.cOut = 0)) :
    formerSet p pl s = okWith [] (s.onFormer fun f => { f with set := formerSettingsOf pl }) := by
  refine (formerSet_bare h hb).trans (if_neg fun hn => ?_)
  rcases hs with hs | hs
  · rw [hs] at hn; cases hn.1
  · exact not_and_or.mpr hn.2 hs

/-- The answer around a change of the former. -/
theorem answeredBy_former {kind : Byte} {block : Port → List Byte → State → State × Answer} {f : Frame}
    {g : Former → Former}
    (h : block f.port f.payload (received kind f s) = okWith [] ((received kind f s).onFormer g)) :
    answeredBy kind block f s = answered kind f .ok [] { s with former := g s.former } :=
  answeredBy_eq (t := (received kind f s).onFormer g) (a := ⟨.ok, []⟩) h rfl

end

end Sys2Proof.Machine

namespace Sys2Proof.Proofs

open Sys2Proof.Machine Sys2Proof.Safety

/-- Settles O25: the answers of FORMER_SET in the order of its checks. -/
theorem formerSet : Obligations.FormerSet := by
  intro pl extra s hlen f c ok sameScale settled
  have hc : formerSettingsOf pl = c := formerSettingsOf_fields hlen
  have hok : formerSettingsOk (formerSettingsOf pl) = true ↔ ok := by
    rw [formerSettingsOk_iff (formerSettingsOf_byte pl), hc]
  have hscale : sameScales (formerSettingsOf pl) s.former.set = true ↔ sameScale := by rw [sameScales_iff, hc]
  have hexec := exec_formerSet (f := f) s (by rw [hlen]; decide) rfl (by rw [hlen]; rfl)
  refine ⟨fun hbad => ?badValue, fun h hb => ?notBare, fun h hb hs hn => ?unsettled, fun h hb hs => ?taken⟩
  case badValue => exact hexec.trans (congrArg _ (answeredBy_refused (formerSet_badValue (mt hok.mp hbad))))
  case notBare => exact hexec.trans (congrArg _ (answeredBy_refused (formerSet_notBare (hok.mpr h) hb)))
  case unsettled =>
    exact hexec.trans (congrArg _ (answeredBy_refused (formerSet_unsettled (hok.mpr h) hb (mt hscale.mp hs) hn)))
  case taken =>
    have htaken := answeredBy_former (formerSet_taken (s := received 0x18 f s) (p := f.port) (hok.mpr h) hb
      (hs.imp hscale.mpr id))
    rw [hc] at htaken
    exact hexec.trans (congrArg _ htaken)

end Sys2Proof.Proofs
end

section
/-! SUPPORT. The end of a stroke: the pleat counted, the former moved on or paused (R69, R70, R74), and STOPPED entered with
work kept (R182). -/

namespace Sys2Proof.Machine

open Sys2Proof.Safety

/-! ### The former's step -/

theorem currentStep_eq {s : State} {i : Nat} (hi : s.former.step = some i) :
    currentStep s = (patternAhead s).steps[i]? := by
  rw [currentStep, hi, headPattern_eq]; rfl

theorem currentStep_some {s : State} {st : StepRec} (h : currentStep s = some st) :
    ∃ i, s.former.step = some i ∧ (patternAhead s).steps[i]? = some st := by
  cases hi : s.former.step with
  | none => rw [currentStep, hi] at h; cases h
  | some i => exact ⟨i, rfl, (currentStep_eq hi).symm.trans h⟩

theorem triggerReached_iff (s : State) : triggerReached s = true ↔ triggerMet s := by
  unfold triggerReached triggerMet
  cases s.former.trigger <;> simp

theorem enterTail_eq (s : State) : enterTail s = tailEntered s := by
  unfold enterTail tailEntered beginLength; rw [headPattern_eq]; rfl

theorem enterFlat_eq (i : Nat) (st : StepRec) (s : State) : enterFlat i st s = flatEntered i st s := rfl

/-- A pleat counted, the phase timer stopped (R69). -/
theorem pleatFormed_eq (s : State) :
    onFormingPanel (fun r => { r with formed := bump16 r.formed }) (s.onFormer fun f => { f with timer := none }) =
      pleatFormed s := by
  unfold onFormingPanel pleatFormed
  cases hp : s.former.panel with
  | none => simp [State.onFormer, hp]
  | some n => simp [State.onFormer, hp, onPanel, State.onTracker, bump16, eq_comm]

theorem patternAhead_pleatFormed (s : State) : patternAhead (pleatFormed s) = patternAhead s := rfl

theorem afterStroke_eq {s : State} {i : Nat} {st : StepRec} (hi : s.former.step = some i)
    (hst : (patternAhead s).steps[i]? = some st) : afterStroke s = afterPleat i st s := by
  have hcur := (currentStep_eq hi).trans hst
  unfold afterStroke afterPleat
  rw [hi, hcur, headPattern_eq]
  dsimp only
  split
  · rfl
  · cases (patternAhead s).steps[i + 1]? with
    | none => exact enterTail_eq s
    | some nx =>
      by_cases hk : nx.kind = 3
      · simp only [hk, isPleated, ne_eq, not_true_eq_false, decide_false, Bool.false_eq_true, if_true, if_false]
        exact enterFlat_eq _ _ _
      · simp only [hk, isPleated, ne_eq, not_false_eq_true, decide_true, if_true, if_false]
        rfl

/-- What `afterPleat` makes of a state: its former only (R69). -/
theorem afterPleat_frame (i : Nat) (st : StepRec) (s : State) :
    afterPleat i st s = { s with former := (afterPleat i st s).former } := by
  unfold afterPleat
  split
  · rfl
  · split
    · rfl
    · split <;> rfl

/-- Of the former's fields it keeps the panel, the late-pending flag and the phase timer. -/
theorem afterPleat_former (i : Nat) (st : StepRec) (s : State) :
    (afterPleat i st s).former.panel = s.former.panel ∧ (afterPleat i st s).former.late = s.former.late ∧
      (afterPleat i st s).former.timer = s.former.timer ∧
      ((afterPleat i st s).former.state = .wait ∨ inPleatedStep (afterPleat i st s).former = false) := by
  unfold afterPleat
  split
  · exact ⟨rfl, rfl, rfl, Or.inl rfl⟩
  · split
    · exact ⟨rfl, rfl, rfl, Or.inr rfl⟩
    · split
      · exact ⟨rfl, rfl, rfl, Or.inr rfl⟩
      · exact ⟨rfl, rfl, rfl, Or.inl rfl⟩

/-- The pleat counted and the former moved on, with what follows from it (R69, R70, R74). -/
theorem endRetract_eq {s : State} {i : Nat} {st : StepRec} (hi : s.former.step = some i)
    (hst : (patternAhead s).steps[i]? = some st) :
    endRetract s =
      if s.sup.line = .stopping then
        ((afterPleat i st (pleatFormed s)).onFormer (pauseIn (afterPleat i st (pleatFormed s)).former.state), [.stopCheck])
      else if (afterPleat i st (pleatFormed s)).former.state = .wait ∧
          (afterPleat i st (pleatFormed s)).former.late = true then
        startStroke (afterPleat i st (pleatFormed s))
      else (afterPleat i st (pleatFormed s), [.former]) := by
  unfold endRetract
  rw [(currentStep_eq hi).trans hst]
  dsimp only
  rw [pleatFormed_eq, afterStroke_eq (s := pleatFormed s) hi hst]

/-! ### The joint flags -/

/-- In a pleated step the flags stand through a pleat's end (R89). -/
theorem jointFlags_afterPleat {s : State} (i : Nat) (st : StepRec) (hj : JointFlags s)
    (hp : inPleatedStep s.former = true) {f : Former} (hf : f.panel = s.former.panel) :
    JointFlags { afterPleat i st (pleatFormed s) with former := f } := by
  rw [afterPleat_frame]
  refine jointFlags_refine hj rfl (fun _ => ⟨hp, hf⟩) fun r' hr' => ?_
  obtain ⟨r, hr, rfl⟩ := List.mem_map.mp hr'
  refine ⟨r, hr, ?_⟩
  split <;> exact ⟨rfl, rfl, rfl⟩

/-! ### STOPPED with work kept -/

theorem commandHood_line (b : Bool) (s : State) :
    (commandHood b s).sup.line = s.sup.line ∧ (commandHood b s).sup.prev = s.sup.prev := by
  unfold commandHood deriveHood
  dsimp only
  split <;> exact ⟨rfl, rfl⟩

theorem leaveBoundaryHold_kept {s : State} (h : heldAtBoundary s.former = false) : leaveBoundaryHold s = s := by
  refine if_neg fun hn => ?_
  simp only [heldAtBoundary, hn.1, decide_true, Bool.true_and, Bool.or_eq_false_iff, decide_eq_false_iff_not] at h
  exact hn.2.elim h.1 h.2

theorem setLine_line (l : LineState) (s : State) :
    (setLine l s).sup.line = l ∧ (setLine l s).sup.prev = s.sup.line := by
  obtain ⟨zs, ms, hset⟩ := setLine_eq (s := s) l
  rw [hset]
  exact ⟨rfl, rfl⟩

/-- Entry to STOPPED of a line whose former does not wait at a boundary (R182). -/
theorem enterStopped_kept {s : State} (h : heldAtBoundary s.former = false) :
    (enterLine .stopped s).2 = [.settled false] ∧ production (enterLine .stopped s).1 = production s ∧
      (enterLine .stopped s).1.sup.line = .stopped ∧ (enterLine .stopped s).1.sup.prev = s.sup.line := by
  unfold enterLine
  dsimp only
  generalize hx : s.onSup _ = x
  have hxs : production x = production s := hx ▸ production_onSup s _
  have hprev : x.sup.line = s.sup.line := hx ▸ rfl
  have hprod : production (commandHood false (setLine .stopped x)) = production s := by
    rw [production_commandHood, production_setLine, hxs]
  rw [leaveBoundaryHold_kept (by rw [production_former hprod]; exact h), (commandHood_line _ _).1, (commandHood_line _ _).2,
    (setLine_line _ _).1, (setLine_line _ _).2]
  exact ⟨rfl, hprod, rfl, hprev⟩

theorem jointFlags_of_production {s t : State} (h : production t = production s) (hj : JointFlags s) : JointFlags t := by
  unfold JointFlags at hj ⊢
  rwa [production_former h, production_tracker h]

theorem calm_keeps {s u : State} (h : Calm s u) :
    u.former = s.former ∧ u.tracker = s.tracker ∧ u.sup.line = s.sup.line ∧ u.sup.prev = s.sup.prev := by
  obtain ⟨⟨b, r, rfl⟩, -⟩ := h
  exact ⟨rfl, rfl, rfl, rfl⟩

/-- STOPPING ends with v_ref at 0 and the former HELD; until then nothing changes (R182). -/
theorem leads_stopCheck_held {s : State} (hl : s.sup.line = .stopping) (hs : s.former.state = .held)
    (hh : s.former.hold = .stoppedMid) (hj : JointFlags s) :
    Leads 5 [.stopCheck] s fun t => t.former = s.former ∧ t.tracker = s.tracker ∧
      (s.sup.vRef = 0 → t.sup.line = .stopped ∧ t.sup.prev = .stopping) ∧ (s.sup.vRef ≠ 0 → t = s) := by
  by_cases hv : s.sup.vRef = 0
  · obtain ⟨hsig, hprod, hline, hprev⟩ := enterStopped_kept (s := s) (by simp [heldAtBoundary, hh])
    have hcheck : handle .stopCheck s = enterLine .stopped s := if_pos ⟨hl, hv, Or.inl hs⟩
    have hjoint := jointFlags_of_production hprod hj
    have hformer := production_former hprod
    have htracker := production_tracker hprod
    refine Leads.take (k := 4) ?_
    rw [hcheck, hsig, flagJoints_self hjoint]
    generalize (enterLine .stopped s).1 = x at *
    refine (Leads.calm (k := 0) (rest := []) (gs := [.settled false]) (by simp [calmSignal]) (by rw [hline]; decide)
      (by rw [hformer, hs]; decide) hjoint fun u hu => Leads.done ?_).mono (by decide)
    obtain ⟨hf, ht, hul, hup⟩ := calm_keeps hu
    exact ⟨hf.trans hformer, ht.trans htracker, fun _ => ⟨hul.trans hline, (hup.trans hprev).trans hl⟩,
      fun hn => absurd hv hn⟩
  · have hcheck : handle .stopCheck s = quiet s := if_neg fun h => hv h.2.1
    exact (Leads.skip hcheck (flagJoints_self hj) (Leads.done ⟨rfl, rfl, fun h => absurd h hv, fun _ => rfl⟩)).mono
      (by decide)

/-! ### A stroke ended -/

/-- In RETRACT with the blade home the stroke ends (R69, R70, R74). -/
theorem strokeEnded_retract {s : State} {i : Nat} {st : StepRec} (hs : s.former.state = .retract)
    (hhome : s.tracker.bladeHome.level = true) (hi : s.former.step = some i)
    (hst : (patternAhead s).steps[i]? = some st) (hj : JointFlags s) :
    StrokeEnded i st s (settle (s, [.former])) := by
  have hp : inPleatedStep s.former = true := by rw [inPleatedStep, hs]
  have htest : handle .former s = endRetract s := by
    show formerTest s = _
    unfold formerTest
    rw [hs]
    exact if_pos hhome
  have hend := endRetract_eq hi hst
  set u := afterPleat i st (pleatFormed s) with hu
  obtain ⟨hpanel, hlate, -, hwait⟩ := afterPleat_former i st (pleatFormed s)
  rw [← hu] at hpanel hlate hwait
  have hframe : u = { pleatFormed s with former := u.former } := afterPleat_frame _ _ _
  have hline : u.sup = s.sup := by rw [hframe]; rfl
  have hpattern : patternAhead u = patternAhead s := by rw [hframe]; rfl
  have hjoint : ∀ {f : Former}, f.panel = s.former.panel → JointFlags { u with former := f } :=
    fun hf => jointFlags_afterPleat i st hj hp hf
  have hjointU : JointFlags u := hjoint hpanel
  have hleads : ∀ {Q : State → Prop} {w : Work}, endRetract s = w → JointFlags w.1 → Leads 5 w.2 w.1 Q →
      Q (settle (s, [.former])) := by
    intro Q w hw hjw h
    refine Leads.settle (k := 6) ?_ (by decide)
    rw [flagJoints_self hj]
    refine Leads.take ?_
    rw [htest, hw, flagJoints_self hjw, List.append_nil]
    exact h
  refine ⟨fun hstop => ?stopping, fun hstop hnot hrests => ?rests, fun k next hstop hw hmet hk hnext hruns => ?starts⟩
  case stopping =>
    rw [if_pos hstop] at hend
    have hheld : JointFlags (u.onFormer (pauseIn u.former.state)) := hjoint hpanel
    obtain ⟨htf, htt, hzero, hrun⟩ := hleads hend hheld
      (leads_stopCheck_held (s := u.onFormer (pauseIn u.former.state)) (hline ▸ hstop) rfl rfl hheld)
    refine ⟨htf, htt, fun hv => hzero (hline ▸ hv), fun hv => ?_⟩
    rw [hrun (hline ▸ hv)]
    rfl
  case rests =>
    rw [if_neg hstop, if_neg fun hn => hnot ⟨hn.1, hlate ▸ hn.2⟩] at hend
    have hrest : handle .former u = quiet u := formerTest_rests hrests
    exact hleads (Q := fun t => t = u) hend hjointU
      (Leads.mono (j := 1) (by decide) (Leads.skip hrest (flagJoints_self hjointU) (Leads.done rfl)))
  case starts =>
    have hpu : inPleatedStep u.former = true := by rw [inPleatedStep, hw]
    have hcur : currentStep u = some next := (currentStep_eq hk).trans (by rw [hpattern]; exact hnext)
    have hdone : Settles 0 [] (strokeStarted next u) (strokeStarted next u) := Settles.done _
    by_cases hl : s.former.late = true
    · rw [if_neg hstop, if_pos ⟨hw, hlate.trans hl⟩] at hend
      have hset := settles_startStroke hcur hruns hjointU hpu hdone
      rw [List.append_nil, flagJoints_self (jointFlags_startStroke hcur hjointU hpu)] at hset
      exact hleads (Q := fun t => t = strokeStarted next u) hend (jointFlags_startStroke hcur hjointU hpu)
        fun n hn => hset n (by omega)
    · rw [if_neg hstop, if_neg fun hn => hl (hlate ▸ hn.2)] at hend
      have hset := settles_wait hw (hmet.resolve_left hl) hcur hruns hjointU hdone
      exact hleads (Q := fun t => t = strokeStarted next u) hend hjointU fun n hn => hset n (by omega)

/-! ### The joint flags, once set -/

/-- Setting the flags gives the law, whatever stood before (R89). -/
theorem jointFlags_flagJoints (s : State) : JointFlags (flagJoints s) := by
  cases hp : inPleatedStep s.former && s.tracker.joints.any (fun e => e.entering) with
  | false =>
    have hs : flagJoints s = s := if_neg (by rw [hp]; decide)
    rw [hs]
    intro hin e he hent
    rw [hin, Bool.true_and, List.any_eq_false] at hp
    exact absurd hent (hp e he)
  | true =>
    have hs : flagJoints s = onFormingPanel (flaggedBy s.tracker.joints) s := if_pos hp
    rw [hs]
    intro _ e he hent n hn r hr hnum
    unfold onFormingPanel at he hn hr
    cases hpanel : s.former.panel with
    | none => rw [hpanel] at hn; exact absurd (hpanel.symm.trans hn) nofun
    | some k =>
      rw [hpanel] at he hn hr
      obtain rfl : k = n := Option.some.inj (hpanel.symm.trans hn)
      obtain ⟨r, -, rfl⟩ := List.mem_map.mp hr
      have hflag : s.tracker.joints.any (fun e => e.entering) = true := List.any_eq_true.mpr ⟨e, he, hent⟩
      split at hnum
      · next hr =>
        rw [if_pos hr]
        refine ⟨by rw [flaggedBy, hflag, Bool.or_true], fun hu => ?_⟩
        have hun : s.tracker.joints.any (fun e => e.entering && e.unconfirmed) = true :=
          List.any_eq_true.mpr ⟨e, he, by rw [hent, hu]; rfl⟩
        rw [flaggedBy, hun, Bool.or_true]
      · next hr => exact absurd hnum hr

/-- So every cascade may be read from the flags as set. -/
theorem settle_flagged (s : State) (gs : List Sig) : settle (flagJoints s, gs) = settle (s, gs) :=
  congrArg (cascade cascadeFuel gs) (flagJoints_self (jointFlags_flagJoints s))

theorem flaggedBy_keeps (es : List Joint) (r : PanelRec) :
    (flaggedBy es r).number = r.number ∧ (flaggedBy es r).formed = r.formed := ⟨rfl, rfl⟩

/-- A record of the table, once the flags are set. -/
theorem flagJoints_record {s : State} {r : PanelRec} (hr : r ∈ s.tracker.table) :
    ∃ r' ∈ (flagJoints s).tracker.table, r'.number = r.number ∧ r'.formed = r.formed := by
  unfold flagJoints
  split
  · unfold onFormingPanel
    split
    · exact ⟨r, hr, rfl, rfl⟩
    · refine ⟨_, List.mem_map.mpr ⟨r, hr, rfl⟩, ?_⟩
      split
      · exact flaggedBy_keeps _ r
      · exact ⟨rfl, rfl⟩
  · exact ⟨r, hr, rfl, rfl⟩

/-! ### The two phase timers -/

theorem phaseRuns_of {s : State} {p : FormerState} (h : s.former.state = p) (ht : s.former.timer ≠ none) :
    phaseRuns p s = true := by
  simp [phaseRuns, running, h, Option.isSome_iff_ne_none, ht]

theorem exec_tuckEnd {s : State} {st : StepRec} (h : s.former.state = .tuck) (ht : s.former.timer ≠ none)
    (hst : currentStep s = some st) :
    exec .tuckEnd s = .next (settle (s.onFormer fun f => { f with state := .press, timer := some st.press }, [])) := by
  have hexec : exec .tuckEnd s = .next _ := congrArg Host.Outcome.next (if_pos (phaseRuns_of h ht))
  rw [hexec, hst]
  rfl

/-- The former at entry to RETRACT. -/
def retracting (s : State) : State :=
  { s with former := { s.former with state := .retract, timer := some s.former.set.retractTimeout } }

theorem exec_pressEnd {s : State} (h : s.former.state = .press) (ht : s.former.timer ≠ none) :
    exec .pressEnd s = .next (settle (retracting s, [.former])) :=
  congrArg Host.Outcome.next (if_pos (phaseRuns_of h ht))

/-- From PRESS the joint flags stand in RETRACT. -/
theorem jointFlags_retracting {s : State} (hj : JointFlags s) (h : s.former.state = .press) : JointFlags (retracting s) :=
  jointFlags_refine hj rfl (fun _ => ⟨by rw [inPleatedStep, h], rfl⟩) fun r hr => ⟨r, hr, rfl, rfl, rfl⟩

/-- RETRACT with the blade not home: only the late-pending flag may change (R69, R70). -/
theorem handle_former_retract {s : State} (h : s.former.state = .retract) (hb : s.tracker.bladeHome.level = false) :
    handle .former s = quiet (noteLate s) := by
  show formerTest s = _
  unfold formerTest
  rw [h]
  exact if_neg (by rw [hb]; decide)

theorem noteLate_eq (s : State) :
    noteLate s = { s with former := { s.former with late := s.former.late || triggerReached s } } := by
  unfold noteLate
  cases triggerReached s with
  | false => rw [Bool.or_false]; rfl
  | true => rw [Bool.or_true]; rfl

/-- A cascade in RETRACT with the blade not home. -/
theorem settle_retract_away {s : State} (h : s.former.state = .retract) (hb : s.tracker.bladeHome.level = false)
    (hj : JointFlags s) :
    settle (s, [.former]) = { s with former := { s.former with late := s.former.late || triggerReached s } } := by
  have hlate : JointFlags (noteLate s) := by
    rw [noteLate_eq]
    exact jointFlags_refine hj rfl (fun _ => ⟨by rw [inPleatedStep, h], rfl⟩) fun r hr => ⟨r, hr, rfl, rfl, rfl⟩
  rw [← noteLate_eq]
  refine Settles.settle (k := 1) ?_ (by decide)
  rw [flagJoints_self hj]
  refine Settles.take (handle_former_retract h hb) ?_
  rw [quiet, flagJoints_self hlate]
  exact Settles.done _

/-- Entry to RETRACT changes nothing a pleat's end reads, but the phase timer it stops. -/
theorem strokeEnded_of_retracting {i : Nat} {st : StepRec} {s t : State} (h : StrokeEnded i st (retracting s) t) :
    StrokeEnded i st s t := by
  have hpleat : afterPleat i st (pleatFormed (retracting s)) = afterPleat i st (pleatFormed s) := by
    unfold afterPleat
    rw [patternAhead_pleatFormed, patternAhead_pleatFormed]
    show (if s.former.rep + 1 < st.rep then _ else _) = if s.former.rep + 1 < st.rep then _ else _
    congr 1
  unfold StrokeEnded at h ⊢
  rw [hpleat] at h
  exact h

end Sys2Proof.Machine

namespace Sys2Proof.Proofs

open Sys2Proof.Machine Sys2Proof.Safety

/-- Settles O48: the two phase timers' expiries, RETRACT's end at its entry among them. -/
theorem strokePhases : Obligations.StrokePhases := by
  refine ⟨fun s st h ht hst hj => ?tuck, fun s h ht hb hj => ?away, fun s i st h ht hb hi hst hj => ?home,
    fun s st n r h ht hb hstop hst hn hr hnum => ?stopping⟩
  case tuck =>
    have hpress : JointFlags (s.onFormer fun f => { f with state := .press, timer := some st.press }) :=
      jointFlags_refine hj rfl (fun _ => ⟨by rw [inPleatedStep, h], rfl⟩) fun r hr => ⟨r, hr, rfl, rfl, rfl⟩
    rw [exec_tuckEnd h ht hst]
    exact congrArg Host.Outcome.next (Settles.settle (k := 0) (by rw [flagJoints_self hpress]; exact Settles.done _)
      (by decide))
  case away =>
    have htrigger : triggerReached (retracting s) = true ↔ triggerMet s := triggerReached_iff (retracting s)
    refine ⟨_, exec_pressEnd h ht, ?_⟩
    rw [settle_retract_away (s := retracting s) rfl hb (jointFlags_retracting hj h)]
    refine ⟨rfl, fun hl => ?_, fun hl => ?_⟩
    · show (s.former.late || triggerReached (retracting s)) = true
      rw [htrigger.mpr hl, Bool.or_true]
    · show (s.former.late || triggerReached (retracting s)) = s.former.late
      rw [Bool.eq_false_iff.mpr (mt htrigger.mp hl), Bool.or_false]
  case home =>
    exact ⟨_, exec_pressEnd h ht,
      strokeEnded_of_retracting (strokeEnded_retract (s := retracting s) rfl hb hi hst (jointFlags_retracting hj h))⟩
  case stopping =>
    obtain ⟨i, hi, hsti⟩ := currentStep_some hst
    obtain ⟨f, -, hflag⟩ := flagJoints_eq (retracting s)
    obtain ⟨r₁, hr₁, hnum₁, hformed₁⟩ := flagJoints_record (s := retracting s) hr
    have hlaw := jointFlags_flagJoints (retracting s)
    have hended := (strokeEnded_retract (s := flagJoints (retracting s)) (i := i) (st := st) (by rw [hflag]; rfl)
      (by rw [hflag]; exact hb) (by rw [hflag]; exact hi) (by rw [hflag]; exact hsti) hlaw).1 (by rw [hflag]; exact hstop)
    rw [settle_flagged] at hended
    obtain ⟨hformer, htracker, -⟩ := hended
    obtain ⟨hpanel, -, htimer, -⟩ := afterPleat_former i st (pleatFormed (flagJoints (retracting s)))
    refine ⟨_, exec_pressEnd h ht, ?_⟩
    rw [htracker, hformer, afterPleat_frame, hflag]
    rw [hflag] at hpanel htimer hr₁
    refine ⟨rfl, rfl, hpanel.trans hn, htimer, _, List.mem_map.mpr ⟨r₁, hr₁, rfl⟩, ?_⟩
    rw [if_pos (by rw [hnum₁, hnum]; exact hn)]
    exact ⟨hnum₁.trans hnum, by rw [hformed₁]⟩

end Sys2Proof.Proofs
end

section
/-! SUPPORT. The signals each signal may raise: a closed set of signals is read off this table. -/

namespace Sys2Proof.Machine

open Sys2Proof.Safety

/-- The signals that the taking of a signal may bring. -/
def raises : Sig → Sig → Bool
  | .trip _, .abort | .trip _, .cancelSplice _ | .trip _, .settled _ => true
  | .hoodSeen, .settled _ | .hoodSeen, .formerRun | .hoodSeen, .causes => true
  | .warm, .settled _ | .warm, .hoodSeen => true
  | .causes, .settled _ | .causes, .formerRun | .causes, .causes | .causes, .hoodSeen => true
  | .stopCheck, .settled _ => true
  | .reportEnd, .settled _ | .reportEnd, .formerPause => true
  | .settled _, .warm | .settled _, .bridge => true
  | .drain, .settled _ => true
  | .former, .former | .former, .stopCheck | .former, .reportEnd | .former, .boundary => true
  | .boundary, .causes | .boundary, .search _ | .boundary, .drain | .boundary, .bridge | .boundary, .former => true
  | .space, .boundary => true
  | .formerRun, .boundary | .formerRun, .former | .formerRun, .bridge => true
  | .bridge, .reportEnd | .bridge, .boundary | .bridge, .stopCheck => true
  | .jointsPast, .jointPassed _ => true
  | .track _, .joints | .track _, .jointsPast => true
  | .jointPassed _, .bridge => true
  | .knife, .drain | .knife, .space | .knife, .search _ | .knife, .knife => true
  | .search _, .approach | .search _, .deadline | .search _, .bridge => true
  | .window, .track _ => true
  | .dueExpiry, .bridge => true
  | .rollOut, .trip _ => true
  | .cancelSplice _, .bridge => true
  | _, _ => false

/-- Every signal of a list is among them. -/
def raisesAll (g : Sig) (gs : List Sig) : Bool := gs.all (raises g)

/-- The lists that the former's own conditions may bring: no more than a panel's end (R65, R66, R69, R71). -/
def FormerBrings (gs : List Sig) : Prop :=
  gs = [] ∨ gs = [.former] ∨ gs = [.stopCheck] ∨ gs = [.reportEnd, .boundary, .stopCheck]

section
variable (s : State)

theorem formerBrings_startStroke : FormerBrings (startStroke s).2 := by
  unfold startStroke; split
  · exact .inl rfl
  · exact .inr (.inl rfl)

theorem formerBrings_endRetract : FormerBrings (endRetract s).2 := by
  unfold endRetract; split
  · exact .inl rfl
  · dsimp only; split
    · exact .inr (.inr (.inl rfl))
    · split
      · exact formerBrings_startStroke _
      · exact .inr (.inl rfl)

theorem formerBrings_endFollow : FormerBrings (endFollow s).2 := by
  unfold endFollow; split
  · exact .inr (.inl rfl)
  · split
    · split <;> exact .inr (.inl rfl)
    · exact .inl rfl
  · unfold endPanel; split
    · exact .inl rfl
    · exact .inr (.inr (.inr rfl))
  all_goals exact .inl rfl

theorem formerBrings_formerTest : FormerBrings (formerTest s).2 := by
  have hfollow : FormerBrings (if reached s.tracker.pIn s.former.target = true then endFollow s else quiet s).2 := by
    split
    · exact formerBrings_endFollow s
    · exact .inl rfl
  unfold formerTest; split
  · exact hfollow
  · exact hfollow
  · exact hfollow
  · split
    · exact formerBrings_startStroke s
    · exact .inl rfl
  · exact .inl rfl
  · exact .inl rfl
  · exact .inl rfl
  · split
    · exact formerBrings_endRetract s
    · exact .inl rfl
  all_goals exact .inl rfl

end

theorem raisesAll_formerTest (s : State) : raisesAll .former (formerTest s).2 = true := by
  rcases formerBrings_formerTest s with h | h | h | h <;> rw [h] <;> rfl

theorem raisesAll_formerRun (s : State) : raisesAll .formerRun (formerRun s).2 = true := by
  unfold formerRun; split
  · rfl
  · split
    · rfl
    · split
      · unfold resumeWork; dsimp only; split
        · unfold startStroke; split <;> rfl
        · rfl
      · rfl
    all_goals rfl

theorem raisesAll_boundaryTest (s : State) : raisesAll .boundary (boundaryTest s).2 = true := by
  unfold boundaryTest; split
  · rfl
  · split
    · rfl
    · split
      · split
        · rfl
        · split <;> rfl
      · split
        · rfl
        · split <;> rfl

theorem raisesAll_causesChanged (s : State) : raisesAll .causes (causesChanged s).2 = true := by
  unfold causesChanged; split
  · rfl
  · split
    · split
      · unfold enterLine; dsimp only; split <;> rfl
      · rfl
    · rfl

theorem raisesAll_passKnife (s : State) : raisesAll .knife (passKnife s).2 = true := by
  unfold passKnife; split
  · rfl
  · split
    · dsimp only; split
      · unfold panelAtKnife; split
        · rfl
        · split <;> rfl
      · rfl
    · rfl

theorem raisesAll_search (b : Bool) (s : State) : raisesAll (.search b) (search b s).2 = true := by
  unfold search; dsimp only; split
  · rfl
  · rfl
  · split
    · rfl
    · split <;> rfl
  · split <;> rfl
  all_goals rfl

/-- What a signal brings stands in the table. -/
theorem raisesAll_handle (g : Sig) (s : State) : raisesAll g (handle g s).2 = true := by
  cases g <;> simp only [handle, quiet]
  case trip c => unfold tripLine; dsimp only; split <;> rfl
  case hoodSeen =>
    unfold hoodSeen; split
    · unfold enterLine; dsimp only; split <;> rfl
    · rfl
  case warm => unfold warmTest; split <;> rfl
  case causes => exact raisesAll_causesChanged s
  case stopCheck => unfold stopCheck; split <;> rfl
  case reportEnd => unfold reportEnd; split <;> rfl
  case settled force => unfold reportSettled; dsimp only; split <;> rfl
  case drain =>
    unfold drainTest; split
    · rfl
    · split <;> rfl
  case former => exact raisesAll_formerTest s
  case boundary => exact raisesAll_boundaryTest s
  case space => unfold spaceTest; split <;> rfl
  case formerRun => exact raisesAll_formerRun s
  case formerPause => unfold formerPause; split <;> rfl
  case bridge => unfold bridgeTest; split <;> rfl
  case jointsPast =>
    simp only [passJoints, raisesAll, List.all_map, List.all_eq_true]
    intro x _; rfl
  case jointPassed x => unfold jointPassed; split <;> rfl
  case knife => exact raisesAll_passKnife s
  case search b => exact raisesAll_search b s
  case deadline =>
    unfold deadlineTest; split
    · split <;> rfl
    · rfl
  case approach =>
    unfold approachTest; split
    · split <;> rfl
    · rfl
  case fire =>
    unfold fireTest; split
    · split <;> rfl
    · rfl
  case window =>
    unfold windowTest; split
    · split <;> rfl
    · rfl
  case dueExpiry =>
    unfold dueExpiryTest; split
    · rfl
    · split <;> rfl
  case rollOut =>
    unfold rollOutTest; dsimp only; split
    · rfl
    · split <;> rfl
  case cancelSplice c => unfold withdrawSplice; split <;> rfl
  all_goals rfl

theorem raises_of_mem {g g' : Sig} {s : State} (h : g' ∈ (handle g s).2) : raises g g' = true :=
  List.all_eq_true.mp (raisesAll_handle g s) g' h

end Sys2Proof.Machine
end

section
/-! SUPPORT. The speed update (R185): v_plan_run, v_heat, a line that no settling brings to RUNNING, and the break
timer. -/

namespace Sys2Proof.Machine

open Sys2Proof.Safety

/-! ### The limits -/

/-- A zone's target is no part of its limit (R135). -/
theorem zoneLimit_retarget (r : Recipe) (z : Fin 4) (s : State) :
    zoneLimit r z ((retarget s).zones.get z) = zoneLimit r z (s.zones.get z) := by
  have hbody : zoneBody ((retarget s).zones.get z) = zoneBody (s.zones.get z) := by
    have h := congrArg (fun k => k.zones.get z) (kept_retarget s)
    simpa [kept] using h
  have hread : ∀ q : Zone, zoneLimit r z q = zoneLimit r z (zoneBody q) := fun _ => rfl
  rw [hread, hbody, ← hread]

theorem heatLimit_retarget (s : State) : heatLimit (retarget s) = heatLimit s := by
  have hlimit : ∀ r z, zoneLimit r z ((retarget s).zones.get z) = zoneLimit r z (s.zones.get z) :=
    fun r z => zoneLimit_retarget r z s
  have hset : (retarget s).sup = s.sup ∧ tunnelEntry (retarget s) = tunnelEntry s := by
    obtain ⟨zs, ms, h⟩ := retarget_eq (s := s)
    rw [h]
    exact ⟨rfl, rfl⟩
  unfold heatLimit
  simp only [hlimit, hset]

/-- v_plan_run, the limits that are not imposed standing for 65535 (R185 step 2). -/
theorem planRun_eq {v : Supervisor} (g : RollGeometry) (hreq : v.vReq ≤ 65535) :
    planRun v g = min (min v.vReq v.set.vMax) (min (v.formerLimit.getD 65535)
      (if v.spliceLimit = true then g.vSplice else 65535)) := by
  unfold planRun limitedBy
  cases v.formerLimit <;> cases v.spliceLimit <;> simp only [Option.getD_none, Option.getD_some, if_true, if_false,
    Bool.false_eq_true] <;> omega

/-- Step 4: v_heat, and HEAT withdrawn or given as a hold cause (R180). -/
theorem takeHeatLimit_eq (s : State) : ∃ c r, takeHeatLimit s = { s with
      sup := { s.sup with vHeat := heatLimit s, causes := c }
      router := r } ∧
    (s.sup.causes = ⟨false, false, false⟩ → 0 < heatLimit s → c = ⟨false, false, false⟩) := by
  unfold takeHeatLimit
  dsimp only
  split
  · rw [setCauses_eq]
    refine ⟨_, _, rfl, fun hc hpos => ?_⟩
    show HoldCauses.mk s.sup.causes.starved s.sup.causes.trackFull (decide (heatLimit s = 0)) = _
    rw [hc, decide_eq_false (by omega)]
  · exact ⟨_, _, rfl, fun hc _ => hc⟩

/-- The update up to step 4 (R185). -/
theorem speedUpdate_eq {s : State} (hreq : s.sup.vReq ≤ 65535) :
    ∃ heat c r zs ms, IsHeatLimit s heat ∧
      (s.sup.causes = ⟨false, false, false⟩ → 0 < heat → c = ⟨false, false, false⟩) ∧
      speedUpdate s = ({ s with
        sup := { s.sup with
          formerLimit := formerSpeed s, updateTimer := 100,
          vPlanRun := min (min s.sup.vReq s.sup.set.vMax) (min ((formerSpeed s).getD 65535)
            (if s.sup.spliceLimit = true then s.roll.geo.vSplice else 65535)),
          vHeat := heat, causes := c },
        zones := zs, monitor := { s.monitor with zones := ms }, router := r }, [.settled false, .causes]) := by
  let v : Supervisor := { s.sup with formerLimit := formerSpeed s, updateTimer := 100 }
  let u : State := { s with sup := { v with vPlanRun := planRun v s.roll.geo } }
  have hplan : planRun v s.roll.geo = min (min s.sup.vReq s.sup.set.vMax) (min ((formerSpeed s).getD 65535)
      (if s.sup.spliceLimit = true then s.roll.geo.vSplice else 65535)) := planRun_eq s.roll.geo hreq
  have hupdate : speedUpdate s = (takeHeatLimit (retarget u), [.settled false, .causes]) := by
    unfold speedUpdate; dsimp only; rw [passedLimit_eq]; rfl
  obtain ⟨c, r, htake, hcauses⟩ := takeHeatLimit_eq (retarget u)
  obtain ⟨zs, ms, hre⟩ := retarget_eq (s := u)
  have hheat : IsHeatLimit s (heatLimit (retarget u)) := by rw [heatLimit_retarget]; exact heatLimit_least s
  refine ⟨heatLimit (retarget u), c, r, zs, ms, hheat, fun hc => hcauses ?_, ?_⟩
  · rw [hre]; exact hc
  · rw [hupdate, htake]
    generalize heatLimit (retarget u) = heat
    rw [hre, ← hplan]

/-! ### A line that does not run -/

/-- The line states from which no signal but `hoodSeen` leads to RUNNING. -/
def offLine (l : LineState) : Prop := l ≠ .running ∧ l ≠ .holding ∧ l ≠ .warming

section
variable (s : State)

theorem withdrawCauses_line : (withdrawCauses s).sup.line = s.sup.line := by
  unfold withdrawCauses
  rw [setCauses_eq]

theorem leaveBoundaryHold_line : (leaveBoundaryHold s).sup.line = s.sup.line := by
  unfold leaveBoundaryHold; split
  · rw [withdrawCauses_line]; rfl
  · rfl

/-- The line state that is entered. -/
theorem enterLine_line {l : LineState} (hl : l ≠ .tripped) : (enterLine l s).1.sup.line = l := by
  cases l <;> unfold enterLine <;> dsimp only
  case stopped => rw [leaveBoundaryHold_line, (commandHood_line _ _).1, (setLine_line _ _).1]
  case warming => rw [(setLine_line _ _).1]
  case lowering => rw [(commandHood_line _ _).1, (setLine_line _ _).1]
  case running => rw [(setLine_line _ _).1]
  case holding =>
    split
    · rw [(commandHood_line _ _).1, (setLine_line _ _).1]
    · rw [(setLine_line _ _).1]
  case stopping => rw [(setLine_line _ _).1]
  case tripped => exact absurd rfl hl

theorem tripLine_line (c : TripCause) : (tripLine c s).1.sup.line = .tripped := by
  by_cases h : s.sup.line = .tripped
  · have hquiet : tripLine c s = quiet _ := if_pos h
    rw [hquiet]
    exact h
  · obtain ⟨zs, ms, timer, htrip, -⟩ := tripLine_eq c h
    rw [htrip]
    rfl

end

theorem lineSignal_cases {g : Sig} (h : lineSignal g = true) :
    (∃ c, g = .trip c) ∨ g = .hoodSeen ∨ g = .warm ∨ g = .causes ∨ g = .stopCheck ∨ g = .reportEnd := by
  revert h
  cases g <;> simp [lineSignal]

theorem raises_hoodSeen {g : Sig} (h : raises g .hoodSeen = true) : g = .warm ∨ g = .causes := by
  cases g <;> first | exact .inl rfl | exact .inr rfl | cases h

/-- Off the line's run no signal but `hoodSeen` brings it to RUNNING, and none brings `hoodSeen`. -/
theorem offLine_handle {g : Sig} {s : State} (hg : g ≠ .hoodSeen) (h : offLine s.sup.line) :
    offLine (handle g s).1.sup.line ∧ ∀ g' ∈ (handle g s).2, g' ≠ .hoodSeen := by
  have hquiet : handle g s = quiet s → offLine (handle g s).1.sup.line ∧ ∀ g' ∈ (handle g s).2, g' ≠ .hoodSeen := by
    intro hq
    rw [hq]
    exact ⟨h, nofun⟩
  have hbrings : g ≠ .warm → g ≠ .causes → ∀ g' ∈ (handle g s).2, g' ≠ .hoodSeen := by
    rintro hw hc g' hg' rfl
    exact (raises_hoodSeen (raises_of_mem hg')).elim hw hc
  have henters : ∀ {l : LineState}, handle g s = enterLine l s → l ≠ .tripped → offLine l →
      offLine (handle g s).1.sup.line := fun he ht hl => by rw [he, enterLine_line s ht]; exact hl
  by_cases hline : lineSignal g = true
  · rcases lineSignal_cases hline with ⟨c, rfl⟩ | rfl | rfl | rfl | rfl | rfl
    · refine ⟨?_, hbrings nofun nofun⟩
      show offLine (tripLine c s).1.sup.line
      rw [tripLine_line]
      exact ⟨nofun, nofun, nofun⟩
    · exact absurd rfl hg
    · exact hquiet (if_neg fun hw => h.2.2 hw.1)
    · exact hquiet ((if_neg fun hr => h.1 hr.1).trans (if_neg fun hh => h.2.1 hh.1))
    · by_cases hc : s.sup.line = .stopping ∧ s.sup.vRef = 0 ∧ (s.former.state = .held ∨ s.former.state = .idle)
      · exact ⟨henters (if_pos hc) nofun ⟨nofun, nofun, nofun⟩, hbrings nofun nofun⟩
      · exact hquiet (if_neg hc)
    · by_cases hp : s.sup.stopPending = true
      · exact ⟨henters (if_pos hp) nofun ⟨nofun, nofun, nofun⟩, hbrings nofun nofun⟩
      · exact hquiet (if_neg hp)
  · have hmotion := congrArg (fun m => m.1.line) (motion_handle g s (Bool.eq_false_iff.mpr hline))
    refine ⟨?_, hbrings (fun hw => hline (hw ▸ rfl)) fun hc => hline (hc ▸ rfl)⟩
    rwa [show (handle g s).1.sup.line = s.sup.line from hmotion]

theorem settle_offLine {w : Work} (h : offLine w.1.sup.line) (hw : ∀ g ∈ w.2, g ≠ .hoodSeen) :
    offLine (settle w).sup.line := by
  refine settle_keeps_of (A := fun g => g ≠ .hoodSeen) (P := fun s => offLine s.sup.line) (fun s hs => ?_)
    (fun g s hg hs => offLine_handle hg hs) w h hw
  obtain ⟨f, -, hf⟩ := flagJoints_eq s
  rwa [hf]

/-! ### The break timer -/

section
variable (s : State)

theorem setLine_breakTimer (l : LineState) : (setLine l s).monitor.breakTimer = s.monitor.breakTimer := by
  obtain ⟨zs, ms, h⟩ := setLine_eq (s := s) l
  rw [h]

theorem commandHood_breakTimer (b : Bool) : (commandHood b s).monitor.breakTimer = s.monitor.breakTimer := by
  unfold commandHood deriveHood
  dsimp only
  split <;> rfl

theorem leaveBoundaryHold_breakTimer : (leaveBoundaryHold s).monitor.breakTimer = s.monitor.breakTimer := by
  unfold leaveBoundaryHold; split
  · unfold withdrawCauses
    rw [setCauses_eq]
    rfl
  · rfl

theorem enterLine_breakTimer (l : LineState) : (enterLine l s).1.monitor.breakTimer = s.monitor.breakTimer := by
  cases l <;> unfold enterLine <;> dsimp only
  case stopped => rw [leaveBoundaryHold_breakTimer, commandHood_breakTimer, setLine_breakTimer]; rfl
  case warming => exact setLine_breakTimer s _
  case lowering => rw [commandHood_breakTimer, setLine_breakTimer]
  case running => exact setLine_breakTimer s _
  case holding =>
    split
    · rw [commandHood_breakTimer, setLine_breakTimer]; rfl
    · rw [setLine_breakTimer]; rfl
  case stopping => rw [setLine_breakTimer]; rfl
  case tripped => rfl

end

/-- Only a trip stops the break timer in a cascade (R147). -/
theorem breakTimer_handle {g : Sig} {s : State} (h : tripSignal g = false) :
    (handle g s).1.monitor.breakTimer = s.monitor.breakTimer := by
  have henter : ∀ {p : Prop} [Decidable p] (l : LineState),
      (if p then enterLine l s else quiet s).1.monitor.breakTimer = s.monitor.breakTimer := by
    intro p _ l
    split
    · exact enterLine_breakTimer s l
    · rfl
  by_cases hline : lineSignal g = true
  · rcases lineSignal_cases hline with ⟨c, rfl⟩ | rfl | rfl | rfl | rfl | rfl
    · cases h
    · exact henter .running
    · exact henter .lowering
    · show (causesChanged s).1.monitor.breakTimer = _
      unfold causesChanged; split
      · exact enterLine_breakTimer s _
      · split
        · rw [enterLine_breakTimer]; rfl
        · rfl
    · exact henter .stopped
    · exact henter .stopping
  · exact congrArg Prod.snd (motion_handle g s (Bool.eq_false_iff.mpr hline))

theorem settle_breakTimer {w : Work} (hw : tripFree w.2 = true) :
    (settle w).monitor.breakTimer = w.1.monitor.breakTimer := by
  refine settle_keeps_tripFree (P := fun s => s.monitor.breakTimer = w.1.monitor.breakTimer) (fun s hs => ?_)
    (fun g s hg hs => (breakTimer_handle hg).trans hs) w rfl hw
  obtain ⟨f, -, hf⟩ := flagJoints_eq s
  rwa [hf]

theorem settle_breakSettings (w : Work) :
    (settle w).monitor.vBreakMin = w.1.monitor.vBreakMin ∧ (settle w).monitor.breakTime = w.1.monitor.breakTime :=
  ⟨congrArg (fun k => k.monitor.vBreakMin) (kept_settle w), congrArg (fun k => k.monitor.breakTime) (kept_settle w)⟩

theorem breakWatch_breakTimer (l : LineState) (v : Nat) (m : Monitor) :
    (breakWatch l v m).breakTimer = if v < m.vBreakMin then none
      else if m.vBreakMin ≠ 0 ∧ l ≠ .tripped ∧ m.breakTimer = none then some (m.breakTime * 100) else m.breakTimer := by
  unfold breakWatch
  split
  · rfl
  · split <;> rfl

/-! ### Steps 5 to 8 -/

theorem nextRef_le (v : Supervisor) (target : Nat) : nextRef v target ≤ target := by
  unfold nextRef; split
  · omega
  · split <;> omega

/-- The ramp with the hood DOWN (R185 step 7). -/
theorem nextRef_down {v : Supervisor} (h : v.hood = .down) (target : Nat) :
    nextRef v target = if target ≤ v.vRef then target else min target (v.vRef + v.set.accel) := by
  unfold nextRef
  rw [if_neg (fun hn => hn h)]
  split
  · rfl
  · omega

/-! ### A line that runs -/

/-- On a RUNNING line without a hold cause the settled condition and the causes lead nowhere (R180). -/
theorem settle_running {s : State} (hl : s.sup.line = .running) (hc : s.sup.causes = ⟨false, false, false⟩)
    (hb : s.former.state ≠ .bridge) : (settle (s, [.settled false, .causes])).sup = s.sup := by
  obtain ⟨f, -, hflag⟩ := flagJoints_eq s
  have hlaw := jointFlags_flagJoints s
  refine Leads.settle (w := (s, [.settled false, .causes])) (k := listLoad [.settled false] + 1)
    (Q := fun t => t.sup = s.sup) ?_ (by decide)
  rw [hflag] at hlaw ⊢
  refine Leads.calm (gs := [.settled false]) (rest := [.causes]) (by simp [calmSignal])
    (show s.sup.line ≠ .warming by rw [hl]; decide) hb hlaw ?_
  rintro u ⟨⟨b, r, rfl⟩, -⟩
  refine Leads.skip ?_ (flagJoints_self hlaw) (Leads.done rfl)
  have hnone : noCauses s.sup.causes = true := by rw [hc]; rfl
  exact (if_neg fun h => by cases hnone.symm.trans h.2).trans (if_neg fun h => by cases hl.symm.trans h.1)

end Sys2Proof.Machine

namespace Sys2Proof.Proofs

open Sys2Proof.Machine Sys2Proof.Safety

/-- Settles O34: the speed update's limits, its ramp and output, and the break timer it watches. -/
theorem speedUpdate : Obligations.SpeedUpdate := by
  intro s limit run m hreq hmax
  obtain ⟨heat, c, r, zs, ms, hheat, hcauses, hupdate⟩ := speedUpdate_eq hreq
  have hexec : exec .speedUpdate s = .next (speedSteps (settle (Machine.speedUpdate s))) := rfl
  refine ⟨heat, _, hheat, hexec, ?_⟩
  rw [hupdate]
  generalize hu : (State.mk .. : State) = u
  have hplan : (settle (u, [.settled false, .causes])).sup.vPlanRun = run := (settle_vPlanRun _).trans (hu ▸ rfl)
  have hvHeat : (settle (u, [.settled false, .causes])).sup.vHeat = heat := (settle_vHeat _).trans (hu ▸ rfl)
  have hset : (settle (u, [.settled false, .causes])).sup.set = s.sup.set := (settle_motion _).trans (hu ▸ rfl)
  have hlimit : (settle (u, [.settled false, .causes])).sup.formerLimit = limit := (settle_formerLimit _).trans (hu ▸ rfl)
  have hnext : (settle (u, [.settled false, .causes])).sup.updateTimer = 100 := (settle_updateTimer _).trans (hu ▸ rfl)
  have hoff : offLine s.sup.line → (settle (u, [.settled false, .causes])).sup.line ≠ .running := fun h =>
    (settle_offLine (w := (u, [.settled false, .causes])) (hu ▸ h) (by simp)).1
  have hrun : s.sup.line = .running → s.sup.causes = ⟨false, false, false⟩ → 0 < heat → s.former.state ≠ .bridge →
      (settle (u, [.settled false, .causes])).sup = u.sup := fun hl hc hpos hb =>
    settle_running (hu ▸ hl) (hu ▸ hcauses hc hpos) (hu ▸ hb)
  obtain ⟨hmin, htime⟩ := settle_breakSettings (u, [.settled false, .causes])
  have htimer := settle_breakTimer (w := (u, [.settled false, .causes])) rfl
  generalize settle (u, [.settled false, .causes]) = x at *
  have hwatch := breakWatch_breakTimer x.sup.line (speedSteps x).sup.vRef x.monitor
  rw [hmin, htime, htimer, ← hu] at hwatch
  have hle : (speedSteps x).sup.vRef ≤ min (if x.sup.line = .running then run else 0) heat := by
    rw [← hplan, ← hvHeat]; exact nextRef_le _ _
  refine ⟨hlimit, hplan, hnext, hvHeat, by rw [← hset]; rfl, ?bound, fun h1 h2 h3 => ?still, fun hl hd hc hpos hb => ?ramp,
    hwatch⟩
  case bound => split at hle <;> omega
  case still =>
    rw [if_neg (hoff ⟨h1, h2, h3⟩)] at hle
    omega
  case ramp =>
    have hx := hrun hl hc hpos hb
    have hline : x.sup.line = .running := by rw [hx, ← hu]; exact hl
    have hhood : x.sup.hood = .down := by rw [hx, ← hu]; exact hd
    have hvRef : x.sup.vRef = s.sup.vRef := by rw [hx, ← hu]
    have hvPlan : (speedSteps x).sup.vPlan = if x.sup.line = .running then x.sup.vPlanRun else 0 := rfl
    have hramp : (speedSteps x).sup.vRef = _ :=
      nextRef_down hhood (min (if x.sup.line = .running then x.sup.vPlanRun else 0) x.sup.vHeat)
    rw [if_pos hline, hplan, hvHeat, hvRef, hset] at hramp
    rw [if_pos hline, hplan] at hvPlan
    exact ⟨hline, hvPlan, hramp⟩

end Sys2Proof.Proofs
end

section
/-! SUPPORT. CUT_DONE and SPLICE_DONE are told by a step's own effect only: no signal of a cascade raises them
(R163, R170). -/

namespace Sys2Proof.Machine

open Sys2Proof.Safety

/-- The records of the two kinds of events that no signal raises. -/
def unraised (s : State) : Three (Option EventRecord) × Three (Option EventRecord) :=
  (recordsOf .cutDone s, recordsOf .spliceDone s)

section
variable (s : State)

/-! #### One block's change, and the events of the other kinds -/

@[simp] theorem unraised_onStore (f : Store → Store) : unraised (s.onStore f) = unraised s := rfl
@[simp] theorem unraised_onQueue (f : RunQueue → RunQueue) : unraised (s.onQueue f) = unraised s := rfl
@[simp] theorem unraised_onFormer (f : Former → Former) : unraised (s.onFormer f) = unraised s := rfl
@[simp] theorem unraised_onTracker (f : Tracker → Tracker) : unraised (s.onTracker f) = unraised s := rfl
@[simp] theorem unraised_onSup (f : Supervisor → Supervisor) : unraised (s.onSup f) = unraised s := rfl
@[simp] theorem unraised_onPlanner (f : Planner → Planner) : unraised (s.onPlanner f) = unraised s := rfl
@[simp] theorem unraised_onDose (f : Dose → Dose) : unraised (s.onDose f) = unraised s := rfl
@[simp] theorem unraised_onMonitor (f : Monitor → Monitor) : unraised (s.onMonitor f) = unraised s := rfl
@[simp] theorem unraised_withSettled (b : Bool) : unraised (s.withSettled b) = unraised s := rfl
@[simp] theorem unraised_onPanel (n : BitVec 16) (f : PanelRec → PanelRec) : unraised (onPanel n f s) = unraised s := rfl
@[simp] theorem unraised_onHead (f : Order → Order) : unraised (onHead f s) = unraised s := rfl
@[simp] theorem unraised_dropReference (i : Fin 16) : unraised (dropReference i s) = unraised s := rfl
@[simp] theorem unraised_writeMark (k : MarkKind) (p : Option (BitVec 16)) : unraised (writeMark k p s) = unraised s := rfl
@[simp] theorem unraised_beginPanel (o : Order) : unraised (beginPanel o s) = unraised s := rfl
@[simp] theorem unraised_beginLength (l : Nat) : unraised (beginLength l s) = unraised s := rfl
@[simp] theorem unraised_nameFreeze (n : Option Nat) : unraised (nameFreeze n s) = unraised s := rfl

@[simp] theorem unraised_raise {k : EventKind} (h1 : k ≠ .cutDone) (h2 : k ≠ .spliceDone) (d : List Byte) :
    unraised (raise k d s) = unraised s := by
  simp only [unraised, recordsOf_raise_ne h1, recordsOf_raise_ne h2]

/-! #### Queue and web -/

@[simp] theorem unraised_onFormingPanel (f : PanelRec → PanelRec) : unraised (onFormingPanel f s) = unraised s := by
  unfold onFormingPanel; split <;> rfl

@[simp] theorem unraised_flagJoints : unraised (flagJoints s) = unraised s := by
  unfold flagJoints; split <;> simp

@[simp] theorem unraised_activate : unraised (activate s) = unraised s := by
  have hfell : ∀ u, unraised (queuedFell u) = unraised u := by
    intro u; unfold queuedFell; split <;> simp
  unfold activate; split <;> simp [hfell]

@[simp] theorem unraised_retire (k : Nat) : unraised (retire k s) = unraised s := by unfold retire; split <;> simp

@[simp] theorem unraised_closePanel (n : BitVec 16) (a : Bool) : unraised (closePanel n a s) = unraised s := by
  have hcut : ∀ u, unraised (cutSeesEnd u) = unraised u := by
    intro u; unfold cutSeesEnd chooseTarget; split
    · split <;> rfl
    · rfl
  simp [closePanel, hcut]

@[simp] theorem unraised_countPanel : unraised (countPanel s) = unraised s := by
  unfold countPanel; dsimp only; split
  · simp
  · split
    · simp
    · split <;> simp

@[simp] theorem unraised_countAborted : unraised (countAborted s) = unraised s := by
  unfold countAborted; split
  · rfl
  · split <;> simp

@[simp] theorem unraised_cutSeesStart : unraised (cutSeesStart s) = unraised s := by
  unfold cutSeesStart; split
  · rfl
  · split
    · split
      · rfl
      · dsimp only; split <;> rfl
    · rfl

@[simp] theorem unraised_queueReport (r : PanelRec) : unraised (queueReport r s) = unraised s := by
  unfold queueReport; dsimp only; split <;> simp

@[simp] theorem unraised_passKnife : unraised (passKnife s).1 = unraised s := by
  have hreport : ∀ n u, unraised (panelAtKnife n u).1 = unraised u := by
    intro n u
    unfold panelAtKnife; split
    · rfl
    · split <;> simp [quiet, awaitReport]
  unfold passKnife; split
  · rfl
  · split
    · dsimp only; split <;> simp [hreport]
    · rfl

@[simp] theorem unraised_markArrivals (g : RollGeometry) (p : Pos) (es : List Joint) :
    unraised (markArrivals g p es s) = unraised s := by
  have hmark : ∀ u, unraised (markJoint u) = unraised u := by
    intro u; unfold markJoint; dsimp only; split <;> rfl
  induction es generalizing s with
  | nil => rfl
  | cons e es ih => rw [markArrivals, ih]; split <;> simp [hmark]

/-! #### Zones and line -/

@[simp] theorem unraised_retarget : unraised (retarget s) = unraised s := by
  obtain ⟨zs, ms, h⟩ := retarget_eq (s := s)
  rw [h]; rfl

@[simp] theorem unraised_reportSettled (f : Bool) : unraised (reportSettled f s).1 = unraised s := by
  unfold reportSettled; dsimp only; split
  · rfl
  · dsimp only; split <;> simp

@[simp] theorem unraised_drainTest : unraised (drainTest s).1 = unraised s := by
  unfold drainTest; split
  · rfl
  · split
    · simp
    · rfl

@[simp] theorem unraised_withdrawCauses : unraised (withdrawCauses s) = unraised s := by
  unfold withdrawCauses setCauses; split
  · rfl
  · dsimp only; split <;> simp

@[simp] theorem unraised_holdFor (h : HoldReason) : unraised (holdFor h s) = unraised s := by
  unfold holdFor setCauses; dsimp only; split
  · rfl
  · split <;> simp

@[simp] theorem unraised_commandHood (b : Bool) : unraised (commandHood b s) = unraised s := by
  unfold commandHood deriveHood; dsimp only; split <;> rfl

@[simp] theorem unraised_setLine (l : LineState) : unraised (setLine l s) = unraised s := by simp [setLine]

@[simp] theorem unraised_leaveBoundaryHold : unraised (leaveBoundaryHold s) = unraised s := by
  unfold leaveBoundaryHold; split <;> simp

@[simp] theorem unraised_enterLine (l : LineState) : unraised (enterLine l s).1 = unraised s := by
  cases l <;> simp only [enterLine, quiet, unraised_leaveBoundaryHold, unraised_commandHood, unraised_setLine,
    unraised_onSup]
  case holding => split <;> simp

@[simp] theorem unraised_tripLine (c : TripCause) : unraised (tripLine c s).1 = unraised s := by
  unfold tripLine; dsimp only; split <;> simp [quiet]

@[simp] theorem unraised_causesChanged : unraised (causesChanged s).1 = unraised s := by
  unfold causesChanged; split
  · simp
  · split <;> simp [quiet]

/-! #### Former -/

@[simp] theorem unraised_enterStep (i : Nat) : unraised (enterStep i s) = unraised s := by
  unfold enterStep; split
  · rfl
  · split <;> rfl

@[simp] theorem unraised_startStroke : unraised (startStroke s).1 = unraised s := by
  have hlate : ∀ u, unraised (recordLate u) = unraised u := by
    intro u; unfold recordLate; split <;> simp
  have hfeed : ∀ st u, unraised (enterFeed st u) = unraised u := by
    intro st u; unfold enterFeed; dsimp only; split <;> simp
  unfold startStroke; split
  · rfl
  · simp [hlate, hfeed]

@[simp] theorem unraised_afterStroke : unraised (afterStroke s) = unraised s := by
  unfold afterStroke; split
  · split
    · rfl
    · split
      · rfl
      · split <;> rfl
  · rfl

@[simp] theorem unraised_endRetract : unraised (endRetract s).1 = unraised s := by
  unfold endRetract; split
  · rfl
  · dsimp only; split
    · simp
    · split <;> simp

@[simp] theorem unraised_startPanel : unraised (startPanel s) = unraised s := by
  unfold startPanel; dsimp only; split <;> simp

@[simp] theorem unraised_boundaryTest : unraised (boundaryTest s).1 = unraised s := by
  unfold boundaryTest; split
  · rfl
  · split
    · dsimp only; rw [unraised_holdFor]; split <;> simp
    · split
      · split
        · simp
        · split <;> simp [startBridge, restIdle]
      · split
        · simp
        · split <;> simp [restIdle]

@[simp] theorem unraised_endFollow : unraised (endFollow s).1 = unraised s := by
  unfold endFollow; split
  · simp
  · split
    · split <;> simp
    · rfl
  · unfold endPanel; split <;> simp [quiet]
  all_goals rfl

@[simp] theorem unraised_noteLate : unraised (noteLate s) = unraised s := by unfold noteLate; split <;> rfl

@[simp] theorem unraised_formerTest : unraised (formerTest s).1 = unraised s := by
  unfold formerTest keepReached; split
  case h_4 | h_8 => split <;> simp [quiet]
  case h_5 => dsimp only [quiet]; split <;> simp [endFeed]
  case h_6 | h_7 => simp [quiet]
  case h_9 => dsimp only [quiet]; split <;> rfl
  case h_10 | h_11 => rfl
  all_goals split <;> simp [quiet]

@[simp] theorem unraised_formerRun : unraised (formerRun s).1 = unraised s := by
  unfold formerRun; split
  · rfl
  · split
    case h_2 =>
      split
      · unfold resumeWork; dsimp only; split <;> simp
      · rfl
    all_goals rfl

@[simp] theorem unraised_formerPause : unraised (formerPause s).1 = unraised s := by
  unfold formerPause; split <;> simp [quiet]

@[simp] theorem unraised_formerAbort : unraised (formerAbort s).1 = unraised s := by
  have hpanel : ∀ u, unraised (abortPanel u) = unraised u := by
    intro u; unfold abortPanel; split <;> simp
  have hbridge : ∀ u, unraised (abortBridge u) = unraised u := by
    intro u; unfold abortBridge; split <;> simp
  simp [formerAbort, quiet, hbridge, hpanel]

/-! #### Planner -/

@[simp] theorem unraised_testRollLow : unraised (testRollLow s) = unraised s := by
  unfold testRollLow; split
  · rfl
  · split <;> simp

@[simp] theorem unraised_leaveFired : unraised (leaveFired s) = unraised s := by simp [leaveFired]

@[simp] theorem unraised_announceFailure (n : Nat) (p : Option Pos) : unraised (announceFailure n p s) = unraised s := by
  simp [announceFailure]

@[simp] theorem unraised_schedule (c : Candidate) : unraised (schedule c s) = unraised s := by simp [schedule, announce]
@[simp] theorem unraised_unschedule : unraised (unschedule s) = unraised s := by simp [unschedule]
@[simp] theorem unraised_forceSplice : unraised (forceSplice s) = unraised s := by simp [forceSplice, announce]

@[simp] theorem unraised_search (b : Bool) : unraised (search b s).1 = unraised s := by
  unfold search; dsimp only; split
  · simp
  · rfl
  · split
    · rfl
    · split <;> simp [quiet]
  · split <;> simp [quiet]
  all_goals rfl

@[simp] theorem unraised_rollOutTest : unraised (rollOutTest s).1 = unraised s := by
  unfold rollOutTest; dsimp only; split
  · simp [quiet]
  · split <;> simp [quiet]

@[simp] theorem unraised_withdrawSplice (c : Option FailCause) : unraised (withdrawSplice c s).1 = unraised s := by
  unfold withdrawSplice; split
  · dsimp only; rw [unraised_testRollLow]
    split <;> simp
  · rfl

end

/-- No signal raises CUT_DONE or SPLICE_DONE. -/
theorem unraised_handle (g : Sig) (s : State) : unraised (handle g s).1 = unraised s := by
  cases g <;> simp only [handle, quiet, unraised_tripLine, unraised_causesChanged, unraised_reportSettled,
    unraised_drainTest, unraised_formerTest, unraised_boundaryTest, unraised_formerRun, unraised_formerPause,
    unraised_formerAbort, unraised_passKnife, unraised_search, unraised_rollOutTest, unraised_withdrawSplice]
  case hoodSeen => unfold hoodSeen; split <;> simp [quiet]
  case warm => unfold warmTest; split <;> simp [quiet]
  case stopCheck => unfold stopCheck; split <;> simp [quiet]
  case reportEnd => unfold reportEnd; split <;> simp [quiet]
  case space => unfold spaceTest; split <;> rfl
  case bridge => unfold bridgeTest; split <;> rfl
  case joints => simp [arriveJoints]
  case jointsPast => simp [passJoints]
  case track x => exact unraised_onTracker s _
  case jointPassed x => unfold jointPassed; split <;> rfl
  case deadline =>
    unfold deadlineTest; split
    · split <;> simp [quiet]
    · rfl
  case approach =>
    unfold approachTest; split
    · split <;> rfl
    · rfl
  case fire =>
    unfold fireTest; split
    · split <;> rfl
    · rfl
  case window =>
    unfold windowTest; split
    · split <;> simp [quiet]
    · rfl
  case dueExpiry =>
    unfold dueExpiryTest; split
    · rfl
    · split <;> rfl

theorem unraised_settle (w : Work) : unraised (settle w) = unraised w.1 :=
  settle_same unraised unraised_flagJoints unraised_handle w

end Sys2Proof.Machine
end

section
/-! SUPPORT. An outfeed count (R81, R82): the ring and the cut at the new position, then what the drain test, the knife and
the former make of it (R66, R70, R74, R92, R95, R96, R128, R130, R132, R133, R170). -/

namespace Sys2Proof.Machine

open Sys2Proof.Safety

/-! ### The count -/

/-- One input that changes counts, forward when the levels moved on in the cycle (R81, R85). -/
theorem encoderCount_eq : ∀ r x y a b : Bool, encoderCount r x y a b =
    if (a ≠ x ∧ b = y) ∨ (a = x ∧ b ≠ y) then (if countsForward r x y a b = true then .forward else .reverse)
    else .none := by decide

/-- A forward count before the ring and the cut see it (R82, R147). -/
def countedOn (a b : Bool) (s : State) : State :=
  { s with
    pins := { s.pins with outfeedA := a, outfeedB := b }
    tracker := { s.tracker with
      pOut := s.tracker.pOut + 1
      high := if after (s.tracker.pOut + 1) s.tracker.high then s.tracker.pOut + 1 else s.tracker.high }
    monitor := { s.monitor with breakTimer := s.monitor.breakTimer.map fun _ => s.monitor.breakTime * 100 } }

/-- A reverse count, with the marks beyond it moved back (R91). -/
def countedBack (a b : Bool) (s : State) : State :=
  { s with
    pins := { s.pins with outfeedA := a, outfeedB := b }
    tracker := { s.tracker with
      pOut := s.tracker.pOut - 1
      map := s.tracker.map.map fun m =>
        if after m.pos (s.tracker.pOut - 1) then { m with pos := s.tracker.pOut - 1 } else m } }

section
variable {a b : Bool} {s : State}

theorem exec_outfeed_none
    (h : ¬((a ≠ s.pins.outfeedA ∧ b = s.pins.outfeedB) ∨ (a = s.pins.outfeedA ∧ b ≠ s.pins.outfeedB))) :
    exec (.outfeedCount a b) s = .next { s with pins := { s.pins with outfeedA := a, outfeedB := b } } := by
  show execOutfeedCount a b s = _
  unfold execOutfeedCount
  rw [encoderCount_eq, if_neg h]
  rfl

variable (h : (a ≠ s.pins.outfeedA ∧ b = s.pins.outfeedB) ∨ (a = s.pins.outfeedA ∧ b ≠ s.pins.outfeedB))
include h

theorem exec_outfeed_forward
    (hf : countsForward s.tracker.set.outfeedReversed s.pins.outfeedA s.pins.outfeedB a b = true) :
    exec (.outfeedCount a b) s = .next (settle (cutCompare (shiftCells (countedOn a b s)), [.drain, .knife, .former])) := by
  show execOutfeedCount a b s = _
  unfold execOutfeedCount
  rw [encoderCount_eq, if_pos h, if_pos hf]
  rfl

theorem exec_outfeed_reverse
    (hf : countsForward s.tracker.set.outfeedReversed s.pins.outfeedA s.pins.outfeedB a b = false) :
    exec (.outfeedCount a b) s =
      .next (settle (countedBack a b s, if ranBack (countedBack a b s) then [.trip .webReverse] else [])) := by
  show execOutfeedCount a b s = _
  unfold execOutfeedCount
  rw [encoderCount_eq, if_pos h, if_neg (by rw [hf]; decide)]
  rfl

end

theorem ranBack_iff (s : State) : ranBack s = true ↔
    s.dose.tunnel.pitch < (s.tracker.high - s.tracker.pOut).toNat ∧ (s.tracker.high - s.tracker.pOut).toNat < 2 ^ 31 ∧
      s.sup.line ≠ .tripped := by
  simp only [ranBack, Bool.and_eq_true, decide_eq_true_eq, and_assoc]

/-! ### The ring (R130, R132, R133) -/

theorem covers_iff (x : Pos) (r : PanelRec) : covers x r = true ↔ inPanel x r := by
  unfold covers inPanel
  cases r.pOutEnd <;> simp

theorem foldCell_eq (v : Verdict) (c : Cell) (r : PanelRec) : foldCell v c r = foldedInto v c r := by
  have hrank : ∀ v, rankOf v = rankAmong v := fun v => by cases v <;> rfl
  have hmin : (if r.judged = 0 then c.dose else min r.doseMin c.dose) =
      if r.judged = 0 ∨ c.dose < r.doseMin then c.dose else r.doseMin := by
    by_cases h : r.judged = 0
    · rw [if_pos h, if_pos (Or.inl h)]
    · rw [if_neg h]; split <;> omega
  have hmax : (if r.judged = 0 then c.dose else max r.doseMax c.dose) =
      if r.judged = 0 ∨ r.doseMax < c.dose then c.dose else r.doseMax := by
    by_cases h : r.judged = 0
    · rw [if_pos h, if_pos (Or.inl h)]
    · rw [if_neg h]; split <;> omega
  have hpeak : max r.peak c.peak = if r.peak < c.peak then c.peak else r.peak := by split <;> omega
  unfold foldCell foldedInto worse bump16
  rw [hmin, hmax, hpeak, hrank, hrank]

/-- Judging a cell touches the records only. -/
theorem judgeCell_frame (c : Option Cell) (s : State) :
    ∃ T, judgeCell c s = { s with tracker := { s.tracker with table := T } } := by
  have hoffer : ∀ v c, ∃ T, offerCell v c s = { s with tracker := { s.tracker with table := T } } := by
    intro v c
    unfold offerCell
    split
    · exact ⟨s.tracker.table, rfl⟩
    · exact ⟨_, rfl⟩
  unfold judgeCell
  split
  · exact hoffer _ _
  · exact ⟨s.tracker.table, rfl⟩

/-- The oldest record that covers the cell's start takes it. -/
theorem judgeCell_covered {s : State} {i : Fin 4} {c : Cell} {before later : List PanelRec} {r : PanelRec}
    (hi : s.dose.tunnelRecipe = some i) (ht : s.tracker.table = before ++ r :: later)
    (hb : ∀ q ∈ before, ¬inPanel c.start q) (hr : inPanel c.start r) :
    judgeCell (some c) s = { s with tracker := { s.tracker with
      table := s.tracker.table.map fun q =>
        if q.number = r.number then foldedInto (verdictOf (s.dose.recipes.get i) c) c q else q } } := by
  have hfind : s.tracker.table.find? (covers c.start) = some r := by
    refine List.find?_eq_some_iff_append.mpr ⟨(covers_iff _ _).mpr hr, before, later, ht, fun q hq => ?_⟩
    rw [Bool.not_eq_true', ← Bool.not_eq_true, covers_iff]
    exact hb q hq
  have hjudge : judgeCell (some c) s = offerCell (verdictOf (s.dose.recipes.get i) c) c s := by
    unfold judgeCell tunnelEntry
    rw [hi]
    rfl
  have hfold : foldCell (verdictOf (s.dose.recipes.get i) c) c = foldedInto (verdictOf (s.dose.recipes.get i) c) c :=
    funext (foldCell_eq _ _)
  rw [hjudge, offerCell, hfind, hfold]
  rfl

/-- Without a tunnel recipe, a cell or a record that covers it, nothing is judged. -/
theorem judgeCell_dropped {s : State} {c : Option Cell}
    (h : s.dose.tunnelRecipe = none ∨ c = none ∨ ∀ x, c = some x → ∀ r ∈ s.tracker.table, ¬inPanel x.start r) :
    judgeCell c s = s := by
  cases c with
  | none => rfl
  | some x =>
    cases hi : s.dose.tunnelRecipe with
    | none => unfold judgeCell tunnelEntry; rw [hi]; rfl
    | some i =>
      have hnone : s.tracker.table.find? (covers x.start) = none := by
        refine List.find?_eq_none.mpr fun r hr => ?_
        rw [covers_iff]
        rcases h with h | h | h
        · cases hi.symm.trans h
        · cases h
        · exact h x rfl r hr
      unfold judgeCell tunnelEntry
      rw [hi]
      show offerCell _ x s = s
      rw [offerCell, hnone]

/-- The Dose Tracker after a shift. -/
def ringShifted (d : Dose) : Dose :=
  { d with
    nextShift := d.nextShift + BitVec.ofNat 32 d.tunnel.pitch
    cells := some ⟨d.nextShift - BitVec.ofNat 32 d.tunnel.pitch - BitVec.ofNat 32 d.tunnel.lTe, 0, 0, false⟩ ::
      d.cells.dropLast }

theorem shiftCells_off {s : State} (h : s.tracker.pOut ≠ s.dose.nextShift) : shiftCells s = s := if_neg h

theorem shiftCells_at {s : State} (h : s.tracker.pOut = s.dose.nextShift) :
    shiftCells s = { judgeCell (s.dose.cells.getLast?.getD none) s with dose := ringShifted s.dose } := by
  unfold shiftCells
  rw [if_pos h]
  obtain ⟨T, hT⟩ := judgeCell_frame (s.dose.cells.getLast?.getD none) s
  rw [hT]
  rfl

/-- What a shift, made or not, leaves of a state. -/
theorem shiftCells_frame (s : State) : ∃ T, shiftCells s = { s with
    tracker := { s.tracker with table := T }
    dose := if s.tracker.pOut = s.dose.nextShift then ringShifted s.dose else s.dose } := by
  by_cases h : s.tracker.pOut = s.dose.nextShift
  · obtain ⟨T, hT⟩ := judgeCell_frame (s.dose.cells.getLast?.getD none) s
    exact ⟨T, by rw [shiftCells_at h, hT, if_pos h]⟩
  · exact ⟨s.tracker.table, by rw [shiftCells_off h, if_neg h]⟩

/-! ### The cut (R170) -/

/-- The cut compare touches the cut and its event record only. -/
theorem cutCompare_frame (s : State) :
    ∃ k r, cutCompare s = { s with roll := { s.roll with cut := k }, router := r } := by
  unfold cutCompare
  split
  · exact ⟨_, _, rfl⟩
  · split <;> exact ⟨_, _, rfl⟩

theorem cutCompare_still {s : State}
    (h : ∀ c, s.roll.cut.point = some c → s.roll.cut.state ≠ .waiting ∨ reached s.tracker.pOut c = false) :
    cutCompare s = s := by
  unfold cutCompare
  split
  · rfl
  · next c hc =>
    refine if_neg fun hn => ?_
    rcases h c hc with hw | hr
    · exact hw hn.1
    · rw [hr] at hn; cases hn.2

theorem cutCompare_fires {s : State} {c : Pos} (hw : s.roll.cut.state = .waiting) (hp : s.roll.cut.point = some c)
    (hr : reached s.tracker.pOut c = true) : cutCompare s = fireCut 0 (s.roll.cut.target.map CutTarget.panel) s := by
  unfold cutCompare
  rw [hp]
  exact if_pos ⟨hw, hr⟩

/-- The detail of CUT_DONE (R24). -/
theorem noted_fireCut (s : State) : Noted .cutDone
    (le4 s.tracker.pOut.toNat ++ le1 0 ++ le2 ((s.roll.cut.target.map CutTarget.panel).getD 0).toNat ++
      le1 (bit (s.roll.cut.target.map CutTarget.panel).isSome 1)) s
    (fireCut 0 (s.roll.cut.target.map CutTarget.panel) s) := by
  rw [le4_eq]
  exact noted_of_raise rfl

/-! ### What stands still at a count -/

theorem settles_drain_none {s t : State} {k : Nat} {rest : List Sig} (h : s.dose.pendingRecipe = none) (hj : JointFlags s)
    (hs : Settles k rest s t) : Settles (k + 1) (.drain :: rest) s t := by
  refine Settles.skip ?_ (flagJoints_self hj) hs
  show drainTest s = _
  rw [drainTest, h]

/-- No mark stands at the knife. -/
def KnifeClear (s : State) : Prop :=
  ∀ x rest, s.tracker.map = x :: rest → reached s.tracker.pOut (x.pos + BitVec.ofNat 32 s.roll.geo.lK) = false

theorem settles_knife_clear {s t : State} {k : Nat} {rest : List Sig} (h : KnifeClear s) (hj : JointFlags s)
    (hs : Settles k rest s t) : Settles (k + 1) (.knife :: rest) s t := by
  refine Settles.skip ?_ (flagJoints_self hj) hs
  show passKnife s = _
  unfold passKnife
  split
  · rfl
  · next x xs hx =>
    have haway : reached s.tracker.pOut (ahead x.pos s.roll.geo.lK) = false := h x xs hx
    exact if_neg (by rw [haway]; decide)

theorem settles_former_rests {s t : State} {k : Nat} {rest : List Sig} (h : FormerRests s) (hj : JointFlags s)
    (hs : Settles k rest s t) : Settles (k + 1) (.former :: rest) s t :=
  Settles.skip (formerTest_rests h) (flagJoints_self hj) hs

theorem settles_space_away {s t : State} {k : Nat} {rest : List Sig} (h : heldAtBoundary s.former = false)
    (hj : JointFlags s) (hs : Settles k rest s t) : Settles (k + 1) (.space :: rest) s t :=
  Settles.skip (handle_space_quiet h) (flagJoints_self hj) hs

/-- A search made for a planner that plans finds nothing to do in the other states (R160). -/
theorem settles_search_other {s t : State} {k : Nat} {rest : List Sig} (h : s.roll.planner.state ≠ .planning)
    (hj : JointFlags s) (hs : Settles k rest s t) : Settles (k + 1) (.search true :: rest) s t := by
  refine Settles.skip ?_ (flagJoints_self hj) hs
  show search true s = _
  unfold search
  dsimp only
  cases hp : s.roll.planner.state with
  | planning => exact absurd hp h
  | scheduled => cases (searchFinds s).2 <;> rfl
  | idle => rfl
  | approach => rfl
  | fired => rfl

/-- With no recipe pending and no mark at the knife the former alone decides. -/
theorem settle_count {s t : State} {k : Nat} (hp : s.dose.pendingRecipe = none) (hm : KnifeClear s) (hj : JointFlags s)
    (h : Settles k [.former] s t) (hk : k + 2 ≤ cascadeFuel) : settle (s, [.drain, .knife, .former]) = t := by
  refine Settles.settle (k := k + 2) ?_ hk
  rw [flagJoints_self hj]
  exact settles_drain_none hp hj (settles_knife_clear hm hj h)

/-- Nothing waits for the count. -/
theorem settle_count_rests {s : State} (hp : s.dose.pendingRecipe = none) (hm : KnifeClear s) (hj : JointFlags s)
    (hf : FormerRests s) : settle (s, [.drain, .knife, .former]) = s :=
  settle_count hp hm hj (settles_former_rests hf hj (Settles.done s)) (by decide)

/-- A trigger reached during a stroke makes the next one late (R70). -/
theorem formerTest_late {s : State}
    (h : s.former.state = .tuck ∨ s.former.state = .press ∨
      (s.former.state = .feed ∧ reached s.tracker.pIn s.former.target = false) ∨
      (s.former.state = .retract ∧ s.tracker.bladeHome.level = false))
    (hm : triggerMet s) : formerTest s = quiet { s with former := { s.former with late := true } } := by
  have hlate : noteLate s = { s with former := { s.former with late := true } } := by
    rw [noteLate_eq, (triggerReached_iff s).mpr hm, Bool.or_true]
  unfold formerTest
  rcases h with h | h | ⟨h, hf⟩ | ⟨h, hb⟩ <;> rw [h] <;> dsimp only
  · rw [hlate]
  · rw [hlate]
  · rw [hlate, hf, if_neg (by decide)]
  · rw [hlate, hb, if_neg (by decide)]

/-! ### The knife (R92, R95, R96) -/

/-- The state with its oldest mark removed. -/
def unmarked (rest : List Mark) (s : State) : State := { s with tracker := { s.tracker with map := rest } }

theorem findPanel_some {t : Tracker} {n : BitVec 16} {before later : List PanelRec} {r : PanelRec}
    (ht : t.table = before ++ r :: later) (hr : r.number = n) (hb : ∀ q ∈ before, q.number ≠ n) : findPanel t n = some r :=
  List.find?_eq_some_iff_append.mpr ⟨by simp [hr], before, later, ht, fun q hq => by simp [hb q hq]⟩

theorem findPanel_none {t : Tracker} {n : BitVec 16} (h : ∀ r ∈ t.table, r.number ≠ n) : findPanel t n = none :=
  List.find?_eq_none.mpr fun r hr => by simp [h r hr]

theorem oldestWaiting_none {t : Tracker} (h : ∀ w ∈ t.table, w.state ≠ .waitingReport) : oldestWaiting t = none :=
  List.find?_eq_none.mpr fun w hw => by simp [h w hw]

section
variable {s : State} {x : Mark} {rest : List Mark} {n : BitVec 16}
  (hmap : s.tracker.map = x :: rest) (hat : reached s.tracker.pOut (x.pos + BitVec.ofNat 32 s.roll.geo.lK) = true)
include hmap hat

/-- A mark that is no panel's end passes the knife. -/
theorem passKnife_other (h : x.kind ≠ .panelEnd ∨ x.panel = none) :
    passKnife s = (unmarked rest s, [.space, .search true, .knife]) := by
  unfold passKnife
  rw [hmap]
  refine (if_pos hat).trans ?_
  dsimp only
  split
  · next hk hp =>
    rcases h with h | h
    · exact absurd hk h
    · cases h.symm.trans hp
  · rfl

theorem passKnife_end (hk : x.kind = .panelEnd) (hp : x.panel = some n) :
    passKnife s =
      ((panelAtKnife n (unmarked rest s)).1,
        (panelAtKnife n (unmarked rest s)).2 ++ [.space, .search true, .knife]) := by
  unfold passKnife
  rw [hmap]
  refine (if_pos hat).trans ?_
  dsimp only
  rw [hk, hp]
  rfl

end

/-- A panel whose record is gone. -/
theorem panelAtKnife_gone {s : State} {n : BitVec 16} (h : ∀ r ∈ s.tracker.table, r.number ≠ n) :
    panelAtKnife n s = quiet s := by
  unfold panelAtKnife
  rw [findPanel_none h]

/-- A mark without a panel's report to make. -/
theorem passKnife_gone {s : State} {x : Mark} {rest : List Mark} (hmap : s.tracker.map = x :: rest)
    (hat : reached s.tracker.pOut (x.pos + BitVec.ofNat 32 s.roll.geo.lK) = true)
    (h : x.kind ≠ .panelEnd ∨ ∀ n, x.panel = some n → ∀ r ∈ s.tracker.table, r.number ≠ n) :
    passKnife s = (unmarked rest s, [.space, .search true, .knife]) := by
  by_cases hk : x.kind = .panelEnd
  · cases hp : x.panel with
    | none => exact passKnife_other hmap hat (Or.inr hp)
    | some n =>
      rw [passKnife_end hmap hat hk hp,
        panelAtKnife_gone (s := unmarked rest s) ((h.resolve_left (not_not.mpr hk)) n hp)]
      rfl
  · exact passKnife_other hmap hat (Or.inl hk)

/-- A panel whose report is made. -/
theorem panelAtKnife_reports {s : State} {n : BitVec 16} {before later : List PanelRec} {r : PanelRec}
    (ht : s.tracker.table = before ++ r :: later) (hr : r.number = n) (hb : ∀ q ∈ before, q.number ≠ n)
    (hroom : s.tracker.reports.length < 16) (hw : ∀ w ∈ s.tracker.table, w.state ≠ .waitingReport) :
    panelAtKnife n s = ({ s with
      tracker := { s.tracker with table := before ++ later, reports := s.tracker.reports ++ [finalReport r] }
      router := if s.tracker.reports = [] then s.router.map (notePort .reportReady [1]) else s.router },
      [.drain, .space]) := by
  have herase : s.tracker.table.eraseP (fun q => q.number == r.number) = before ++ later := by
    rw [ht, List.eraseP_append_right _ (fun q hq => by simpa [hr] using hb q hq), List.eraseP_cons_of_pos (by simp)]
  unfold panelAtKnife
  rw [findPanel_some ht hr hb]
  dsimp only
  rw [if_pos ⟨hroom, oldestWaiting_none hw⟩]
  simp only [queueReport, State.onTracker, herase]
  by_cases he : s.tracker.reports = []
  · rw [he]
    rfl
  · rw [if_neg he, if_neg (by simpa using he)]
    rfl

/-- A panel that must wait for its report. -/
theorem panelAtKnife_waits {s : State} {n : BitVec 16} {before later : List PanelRec} {w : PanelRec}
    (hfull : 16 ≤ s.tracker.reports.length ∨ ∃ q ∈ s.tracker.table, q.state = .waitingReport)
    (hn : ∃ r ∈ s.tracker.table, r.number = n)
    (ht : (s.tracker.table.map fun q => if q.number = n then { q with state := .waitingReport } else q) =
      before ++ w :: later)
    (hb : ∀ q ∈ before, q.state ≠ .waitingReport) (hw : w.state = .waitingReport) :
    panelAtKnife n s = quiet { s with
      tracker := { s.tracker with
        table := s.tracker.table.map fun q => if q.number = n then { q with state := .waitingReport } else q }
      router := s.router.map (notePort .reportQueueFull (panelBytes w.number)) } := by
  have hfind : ∃ r, findPanel s.tracker n = some r := by
    obtain ⟨r, hr, hrn⟩ := hn
    exact Option.isSome_iff_exists.mp (List.find?_isSome.mpr ⟨r, hr, by simp [hrn]⟩)
  have hroom : ¬(s.tracker.reports.length < 16 ∧ oldestWaiting s.tracker = none) := by
    rintro ⟨hlen, hnone⟩
    rcases hfull with h | ⟨q, hq, hqw⟩
    · omega
    · simpa [hqw] using List.find?_eq_none.mp hnone q hq
  have holdest : oldestWaiting (onPanel n (fun r => { r with state := .waitingReport }) s).tracker = some w :=
    List.find?_eq_some_iff_append.mpr ⟨by simp [hw], before, later, ht, fun q hq => by simp [hb q hq]⟩
  obtain ⟨r, hr⟩ := hfind
  unfold panelAtKnife
  rw [hr]
  dsimp only
  rw [if_neg hroom]
  unfold awaitReport
  dsimp only
  rw [holdest]
  rfl

/-! ### The drain test (R108, R127, R128, R134) -/

theorem drained_iff (s : State) : drained s = true ↔ tunnelDrained s := by
  have hrecord : ∀ r, inTunnel s r = false ↔ r.state ≠ .forming ∧ ∃ e, r.pOutEnd = some e ∧
      reached s.tracker.pOut
        (e + BitVec.ofNat 32 (s.dose.tunnel.lTe + (s.dose.tunnel.n + 1) * s.dose.tunnel.pitch)) = true := by
    intro r
    unfold inTunnel drainDistance ahead dist
    cases r.state <;> cases r.pOutEnd <;> simp
  unfold drained tunnelDrained
  cases hi : s.dose.tunnelRecipe with
  | none => simp
  | some i =>
    simp only [Bool.not_eq_true', List.any_eq_false, Bool.and_eq_true, decide_eq_true_eq, not_and, Bool.not_eq_true,
      hrecord, Option.some.injEq]
    exact ⟨fun h j hj r hr hrec => h r hr (hrec.trans hj.symm), fun h r hr hrec => h i rfl r hr hrec⟩

theorem targetFor_eq (r : Recipe) (l : LineState) (v : Nat) (z : Fin 4) : targetFor (some r) l v z = targetIn r l v z := by
  unfold targetFor targetIn runTarget usedZone standby compensated
  by_cases hl : l = .stopped ∨ l = .tripped <;> by_cases hz : r.inc.get z = 0 <;> simp [hl, hz] <;> tauto

theorem handTarget_zone (t : Nat) (z z' : Fin 4) (s : State) :
    (handTarget t z s).zones.get z' = if z' = z then handed t (s.zones.get z) else s.zones.get z' := by
  unfold handTarget handed
  split
  · split
    · next hz => rw [hz]
    · rfl
  · show (s.zones.set z _).get z' = _
    rw [Four.get_set]

theorem handTarget_monitor (t : Nat) (z z' : Fin 4) (s : State) :
    (handTarget t z s).monitor.zones.get z' =
      if z' = z then handedMonitor t (s.zones.get z) (s.monitor.zones.get z) else s.monitor.zones.get z' := by
  unfold handTarget handedMonitor
  split
  · split
    · next hz => rw [hz]
    · rfl
  · show (s.monitor.zones.set z _).get z' = _
    rw [Four.get_set]
    rfl

/-- Every zone, and its monitor, is handed the target of the line state (R108, R134). -/
theorem retarget_handed (s : State) (z : Fin 4) :
    (retarget s).zones.get z =
        handed (targetFor (tunnelEntry s) s.sup.line s.sup.vPlanRun z) (s.zones.get z) ∧
      (retarget s).monitor.zones.get z =
        handedMonitor (targetFor (tunnelEntry s) s.sup.line s.sup.vPlanRun z) (s.zones.get z) (s.monitor.zones.get z) := by
  unfold retarget
  simp only [zonesInOrder, List.foldl_cons, List.foldl_nil, handTarget_zone, handTarget_monitor]
  match z with
  | 0 | 1 | 2 | 3 => exact ⟨rfl, rfl⟩

/-- The tunnel takes a recipe (R128). -/
def recipeTaken (i : Fin 4) (s : State) : State :=
  retarget { s with dose := { s.dose with tunnelRecipe := some i, pendingRecipe := none } }

theorem recipeTaken_zone (i : Fin 4) (s : State) (z : Fin 4) :
    (recipeTaken i s).zones.get z = handed (targetIn (s.dose.recipes.get i) s.sup.line s.sup.vPlanRun z) (s.zones.get z) ∧
      (recipeTaken i s).monitor.zones.get z =
        handedMonitor (targetIn (s.dose.recipes.get i) s.sup.line s.sup.vPlanRun z) (s.zones.get z)
          (s.monitor.zones.get z) := by
  rw [← targetFor_eq]
  exact retarget_handed _ z

theorem recipeTaken_frame (i : Fin 4) (s : State) : recipeTaken i s = { s with
    dose := { s.dose with tunnelRecipe := some i, pendingRecipe := none }
    zones := (recipeTaken i s).zones
    monitor := { s.monitor with zones := (recipeTaken i s).monitor.zones } } := by
  obtain ⟨zs, ms, h⟩ := retarget_eq (s := { s with dose := { s.dose with tunnelRecipe := some i, pendingRecipe := none } })
  rw [recipeTaken, h]

/-- A used zone that has not settled under its recipe (R120). -/
theorem settledNow_false {s : State} {i : Fin 4} (hi : s.dose.tunnelRecipe = some i)
    (h : ∃ z, (s.dose.recipes.get i).inc.get z ≠ 0 ∧ (s.zones.get z).settle < (s.dose.recipes.get i).settle) :
    settledNow s = false := by
  obtain ⟨z, hz, hs⟩ := h
  unfold settledNow tunnelEntry
  rw [hi]
  refine List.all_eq_false.mpr ⟨z, mem_zonesInOrder z, ?_⟩
  simp [usedZone, zoneSettled, hz, hs]

/-- Not settled, the condition is withdrawn and nothing follows (R78, R120, R179). -/
theorem settles_unsettled {s t : State} {k : Nat} {rest : List Sig} (h : settledNow s = false) (hj : JointFlags s)
    (hs : Settles k rest { s with settledReported := false } t) : Settles (k + 3) (.settled true :: rest) s t := by
  have hj' : JointFlags { s with settledReported := false } := hj
  have hreport : handle (.settled true) s = ({ s with settledReported := false }, [Sig.warm, Sig.bridge]) := by
    show reportSettled true s = _
    unfold reportSettled
    rw [h]
    exact if_neg fun hn => by cases hn.2
  refine Settles.take hreport ?_
  rw [flagJoints_self hj']
  refine Settles.skip ?_ (flagJoints_self hj') (Settles.skip ?_ (flagJoints_self hj') hs)
  · exact if_neg fun hw => by cases hw.2
  · exact if_neg fun hb => by cases hb.2.2.2.1

/-- A drained tunnel takes the pending recipe, and its zones are not settled under it. -/
theorem settle_count_recipe {s : State} {i : Fin 4} (hp : s.dose.pendingRecipe = some i) (hd : tunnelDrained s)
    (hm : KnifeClear s) (hj : JointFlags s) (hf : FormerRests s)
    (hz : ∃ z, (s.dose.recipes.get i).inc.get z ≠ 0 ∧
      (handed (targetIn (s.dose.recipes.get i) s.sup.line s.sup.vPlanRun z) (s.zones.get z)).settle <
        (s.dose.recipes.get i).settle) :
    settle (s, [.drain, .knife, .former]) = { recipeTaken i s with settledReported := false } := by
  have hdrain : handle .drain s = (recipeTaken i s, [Sig.settled true]) := by
    show drainTest s = _
    unfold drainTest
    rw [hp]
    exact if_pos ((drained_iff s).mpr hd)
  have hframe := recipeTaken_frame i s
  have hun : settledNow (recipeTaken i s) = false := by
    obtain ⟨z, hinc, hset⟩ := hz
    refine settledNow_false (i := i) (by rw [hframe]) ⟨z, ?_⟩
    rw [(recipeTaken_zone i s z).1, hframe]
    exact ⟨hinc, hset⟩
  have hj' : JointFlags (recipeTaken i s) := by rw [hframe]; exact hj
  have hm' : KnifeClear { recipeTaken i s with settledReported := false } := by rw [hframe]; exact hm
  have hf' : FormerRests { recipeTaken i s with settledReported := false } := by rw [hframe]; exact hf
  have hj'' : JointFlags { recipeTaken i s with settledReported := false } := hj'
  refine Settles.settle (k := 6) ?_ (by decide)
  rw [flagJoints_self hj]
  refine Settles.take hdrain ?_
  rw [flagJoints_self hj']
  exact settles_unsettled hun hj' (settles_knife_clear hm' hj'' (settles_former_rests hf' hj'' (Settles.done _)))

theorem settle_count_undrained {s : State} {i : Fin 4} (hp : s.dose.pendingRecipe = some i) (hd : ¬tunnelDrained s)
    (hm : KnifeClear s) (hj : JointFlags s) (hf : FormerRests s) : settle (s, [.drain, .knife, .former]) = s := by
  have hdrain : handle .drain s = quiet s := by
    show drainTest s = _
    unfold drainTest
    rw [hp]
    exact if_neg fun h => hd ((drained_iff s).mp h)
  refine Settles.settle (k := 3) ?_ (by decide)
  rw [flagJoints_self hj]
  exact Settles.skip hdrain (flagJoints_self hj)
    (settles_knife_clear hm hj (settles_former_rests hf hj (Settles.done s)))

/-! ### A mark at the knife -/

/-- What the knife makes of the oldest mark, when nothing else waits: the state it leaves, with or without a report's
signals before the next mark is looked at. -/
theorem settle_count_knife {s u : State} {gs : List Sig} (hp : s.dose.pendingRecipe = none) (hj : JointFlags s)
    (hknife : passKnife s = (u, gs ++ [.space, .search true, .knife])) (hgs : gs = [] ∨ gs = [.drain, .space])
    (hpu : u.dose.pendingRecipe = none) (hju : JointFlags u) (hm : KnifeClear u) (hf : FormerRests u)
    (hh : heldAtBoundary u.former = false) (hpl : u.roll.planner.state ≠ .planning) :
    settle (s, [.drain, .knife, .former]) = u := by
  have htail : Settles 4 [.space, .search true, .knife, .former] u u :=
    settles_space_away hh hju (settles_search_other hpl hju (settles_knife_clear hm hju (settles_former_rests hf hju
      (Settles.done u))))
  refine Settles.settle (k := 8) ?_ (by decide)
  rw [flagJoints_self hj]
  refine settles_drain_none (k := 7) hp hj (Settles.take (k := 6) (w := passKnife s) rfl ?_)
  rw [hknife, flagJoints_self hju]
  rcases hgs with rfl | rfl
  · exact fun n hn => htail n (by omega)
  · exact settles_drain_none hpu hju (settles_space_away hh hju htail)

/-! ### The whole forward count -/

/-- What every forward count leaves: positions, pins, and the ring where the shift position puts it. -/
theorem settle_ring (s : State) (gs : List Sig) :
    (settle (cutCompare (shiftCells s), gs)).pins = s.pins ∧
      (settle (cutCompare (shiftCells s), gs)).tracker.pIn = s.tracker.pIn ∧
      (settle (cutCompare (shiftCells s), gs)).tracker.pOut = s.tracker.pOut ∧
      (settle (cutCompare (shiftCells s), gs)).tracker.high = s.tracker.high ∧
      (settle (cutCompare (shiftCells s), gs)).dose.nextShift =
        (if s.tracker.pOut = s.dose.nextShift then ringShifted s.dose else s.dose).nextShift ∧
      (settle (cutCompare (shiftCells s), gs)).dose.cells =
        (if s.tracker.pOut = s.dose.nextShift then ringShifted s.dose else s.dose).cells := by
  obtain ⟨T, hT⟩ := shiftCells_frame s
  obtain ⟨k, r, hcut⟩ := cutCompare_frame (shiftCells s)
  simp only [settle_pins, settle_pIn, settle_pOut, settle_high, settle_nextShift, settle_cells]
  rw [hcut, hT]
  exact ⟨rfl, rfl, rfl, rfl, rfl, rfl⟩

/-- A waiting cut whose point is reached (R170). -/
theorem settle_cut_fires {s : State} {c : Pos} (gs : List Sig) (hw : s.roll.cut.state = .waiting)
    (hp : s.roll.cut.point = some c) (hr : reached s.tracker.pOut c = true) :
    (settle (cutCompare (shiftCells s), gs)).roll.cut.state = .fired ∧
      (settle (cutCompare (shiftCells s), gs)).roll.cut.fired = true ∧
      (settle (cutCompare (shiftCells s), gs)).roll.cut.pulse = some (s.roll.geo.cutPulse * 10) ∧
      Noted .cutDone
        (le4 s.tracker.pOut.toNat ++ le1 0 ++ le2 ((s.roll.cut.target.map CutTarget.panel).getD 0).toNat ++
          le1 (bit (s.roll.cut.target.map CutTarget.panel).isSome 1)) s (settle (cutCompare (shiftCells s), gs)) := by
  obtain ⟨T, hT⟩ := shiftCells_frame s
  have hfires := cutCompare_fires (s := shiftCells s) (by rw [hT]; exact hw) (by rw [hT]; exact hp) (by rw [hT]; exact hr)
  have hrecords := congrArg Prod.fst (unraised_settle (cutCompare (shiftCells s), gs))
  simp only [settle_cutState, settle_cutFired, settle_cutPulse]
  rw [hfires, hT] at hrecords ⊢
  exact ⟨rfl, rfl, rfl, noted_iff.mpr (hrecords.trans (noted_iff.mp (noted_fireCut s)))⟩

theorem unnoted_of_recordsOf {k : EventKind} {s t : State} (h : recordsOf k t = recordsOf k s) : Unnoted k s t := by
  intro q
  have hq : (recordsOf k t).get q = (recordsOf k s).get q := by rw [h]
  rwa [recordsOf_get, recordsOf_get] at hq

theorem settle_cut_unnoted {s : State} (gs : List Sig)
    (h : ∀ c, s.roll.cut.point = some c → s.roll.cut.state ≠ .waiting ∨ reached s.tracker.pOut c = false) :
    Unnoted .cutDone s (settle (cutCompare (shiftCells s), gs)) := by
  obtain ⟨T, hT⟩ := shiftCells_frame s
  have hstill : cutCompare (shiftCells s) = shiftCells s := by rw [hT]; exact cutCompare_still h
  refine unnoted_of_recordsOf ((congrArg Prod.fst (unraised_settle (cutCompare (shiftCells s), gs))).trans ?_)
  rw [hstill, hT]
  rfl

/-- Neither the ring shifts nor the cut fires. -/
theorem counted_still {s : State} (hon : s.tracker.pOut ≠ s.dose.nextShift)
    (h : ∀ c, s.roll.cut.state = .waiting → s.roll.cut.point = some c → reached s.tracker.pOut c = false) :
    cutCompare (shiftCells s) = s := by
  rw [shiftCells_off hon]
  exact cutCompare_still fun c hc => or_iff_not_imp_left.mpr fun hw => h c (not_not.mp hw) hc

/-- The ring shifts, and the cut does not fire. -/
theorem counted_shifted {s : State} (hon : s.tracker.pOut = s.dose.nextShift)
    (h : ∀ c, s.roll.cut.state = .waiting → s.roll.cut.point = some c → reached s.tracker.pOut c = false) :
    cutCompare (shiftCells s) = { judgeCell (s.dose.cells.getLast?.getD none) s with dose := ringShifted s.dose } := by
  obtain ⟨T, hT⟩ := judgeCell_frame (s.dose.cells.getLast?.getD none) s
  rw [shiftCells_at hon, hT]
  exact cutCompare_still fun c hc => or_iff_not_imp_left.mpr fun hw => h c (not_not.mp hw) hc

/-- The joint flags do not look at what a fold or a waiting report changes of a record. -/
theorem jointFlags_mapped {s : State} {p : PanelRec → PanelRec} (hj : JointFlags s)
    (hp : ∀ r, (p r).number = r.number ∧ (p r).joint = r.joint ∧ (p r).jointUnconfirmed = r.jointUnconfirmed) :
    JointFlags { s with tracker := { s.tracker with table := s.tracker.table.map p } } := by
  refine jointFlags_refine hj rfl (fun h => ⟨h, rfl⟩) fun r' hr' => ?_
  obtain ⟨r, hr, rfl⟩ := List.mem_map.mp hr'
  exact ⟨r, hr, hp r⟩

theorem jointFlags_sublist {s : State} {T : List PanelRec} (hj : JointFlags s) (hT : ∀ r ∈ T, r ∈ s.tracker.table) :
    JointFlags { s with tracker := { s.tracker with table := T } } :=
  jointFlags_refine hj rfl (fun h => ⟨h, rfl⟩) fun r hr => ⟨r, hT r hr, rfl, rfl, rfl⟩

section
variable {s : State} (hp : s.dose.pendingRecipe = none) (hm : KnifeClear s) (hj : JointFlags s)
include hp hm hj

/-- A stroke starts at its trigger in WAIT (R66). -/
theorem settle_count_starts {i : Nat} {st : StepRec} (hw : s.former.state = .wait) (hi : s.former.step = some i)
    (hst : (patternAhead s).steps[i]? = some st) (ht : triggerMet s) (hr : strokeRuns s.former st s.former.rep) :
    settle (s, [.drain, .knife, .former]) = strokeStarted st s :=
  settle_count hp hm hj (settles_wait hw ht ((currentStep_eq hi).trans hst) hr hj (Settles.done _)) (by decide)

/-- A trigger reached during a stroke (R70). -/
theorem settle_count_late
    (h : s.former.state = .tuck ∨ s.former.state = .press ∨
      (s.former.state = .feed ∧ reached s.tracker.pIn s.former.target = false) ∨
      (s.former.state = .retract ∧ s.tracker.bladeHome.level = false)) (ht : triggerMet s) :
    settle (s, [.drain, .knife, .former]) = { s with former := { s.former with late := true } } := by
  have hlate : JointFlags { s with former := { s.former with late := true } } :=
    jointFlags_refine hj rfl (fun hin => ⟨hin, rfl⟩) fun r hr => ⟨r, hr, rfl, rfl, rfl⟩
  refine settle_count hp hm hj (k := 1) (Settles.take (formerTest_late h ht) ?_) (by decide)
  rw [quiet, flagJoints_self hlate]
  exact Settles.done _

/-- A trigger reached in a stop (R74). -/
theorem settle_count_stopped (hs : s.former.state = .held) (hr : s.former.resume = some .wait) (ht : triggerMet s) :
    settle (s, [.drain, .knife, .former]) = { s with former := { s.former with reachedInStop := true } } := by
  have hkept : JointFlags { s with former := { s.former with reachedInStop := true } } :=
    jointFlags_refine hj rfl (fun hin => ⟨hin, rfl⟩) fun r hr => ⟨r, hr, rfl, rfl, rfl⟩
  refine settle_count hp hm hj (k := 1) (Settles.take (formerTest_held hs hr ht) ?_) (by decide)
  rw [quiet, flagJoints_self hkept]
  exact Settles.done _

end

end Sys2Proof.Machine

namespace Sys2Proof.Proofs

open Sys2Proof.Machine Sys2Proof.Safety

/-- Settles O46: the pins of a count, the positions it moves, and what waits on p_out. -/
theorem outfeedCount : Obligations.OutfeedCount := by
  intro a b s pins one forward d on high backP run ranFar marks m f shift shifted cutStill short marksStill
  refine ⟨exec_outfeed_none, fun h1 hf => ?forward, fun h1 hf hfar hj => ?back, fun h1 hf hfar => ?ranBack⟩
  case back =>
    have hran : ranBack (countedBack a b s) = false := Bool.eq_false_iff.mpr fun h => hfar ((ranBack_iff _).mp h)
    rw [exec_outfeed_reverse h1 hf, hran]
    exact congrArg Host.Outcome.next (flagJoints_self (s := countedBack a b s) hj)
  case ranBack =>
    have hran : ranBack (countedBack a b s) = true := (ranBack_iff _).mpr hfar
    refine ⟨_, exec_outfeed_reverse h1 hf, settle_pins _, settle_pOut _, ?_⟩
    rw [hran]
    exact settle_trip .webReverse (s := countedBack a b s) hfar.2.2
  case forward =>
    have hstill : on ≠ d.nextShift → cutStill → cutCompare (shiftCells (countedOn a b s)) = m :=
      fun hon hcut => counted_still (s := m) hon hcut
    obtain ⟨hpins, hpIn, hpOut, hhigh, hnext, hcells⟩ := settle_ring m [.drain, .knife, .former]
    refine ⟨_, exec_outfeed_forward h1 hf, hpins, hpIn, hpOut, hhigh,
      fun hon => ⟨hnext.trans (congrArg Dose.nextShift (if_pos hon)), hcells.trans (congrArg Dose.cells (if_pos hon))⟩,
      fun hon => ⟨hnext.trans (congrArg Dose.nextShift (if_neg hon)), hcells.trans (congrArg Dose.cells (if_neg hon))⟩,
      fun c hw hp hr => ?fires, fun hc => settle_cut_unnoted (s := m) _ hc, fun hon hidle hmap hp hpoint => ?idle,
      fun hon hcut hm hp hj => ?former, fun hon hcut hm hp hj hrest => ?cell,
      fun x rest hon hcut hmap hx hy hp hj hrest hh hpl => ?knife, fun i hon hcut hm hp hj hrest => ?recipe⟩
    case fires =>
      obtain ⟨hstate, hfired, hpulse, hnote⟩ := settle_cut_fires (s := m) [.drain, .knife, .former] hw hp hr
      refine ⟨hstate, hfired, hpulse, fun x hx => ?_, fun hx => ?_⟩
      all_goals
        rw [show m.roll.cut.target = _ from hx] at hnote
        exact hnote
    case idle =>
      rw [hstill hon fun c _ hc => by cases hpoint.symm.trans hc]
      refine settle_count_rests (s := m) hp (fun x rest hx => by cases hmap.symm.trans hx) (fun hin => ?_) ?_
      · rw [inPleatedStep, show m.former.state = .idle from hidle] at hin
        cases hin
      · unfold FormerRests
        rw [show m.former.state = .idle from hidle]
        trivial
    case former =>
      rw [hstill hon hcut]
      exact ⟨settle_count_rests (s := m) hp hm hj,
        fun i st hw hi hst ht hr => settle_count_starts (s := m) hp hm hj hw hi hst ht hr,
        fun h ht => settle_count_late (s := m) hp hm hj h ht,
        fun hs hr ht => settle_count_stopped (s := m) hp hm hj hs hr ht⟩
    case cell =>
      have hat : cutCompare (shiftCells (countedOn a b s)) = _ := counted_shifted (s := m) hon hcut
      rw [hat]
      refine ⟨fun i c before r later hi hc ht hb hr => ?_, fun h => ?_⟩
      · rw [show m.dose.cells.getLast?.getD none = some c from congrArg (·.getD none) hc,
          judgeCell_covered (s := m) hi ht hb hr]
        refine settle_count_rests (s := { m with dose := shifted, tracker := { m.tracker with table := _ } }) hp hm
          (jointFlags_mapped (s := m) hj fun q => ?_) hrest
        split <;> exact ⟨rfl, rfl, rfl⟩
      · rw [judgeCell_dropped (s := m) ?_]
        · exact settle_count_rests (s := { m with dose := shifted }) hp hm hj hrest
        · have hlast : ∀ x, d.cells.getLast?.getD none = some x → d.cells.getLast? = some (some x) := fun x hx => by
            cases hl : d.cells.getLast? with
            | none => rw [hl] at hx; cases hx
            | some y => rw [hl] at hx; exact congrArg some hx
          exact h.imp_right fun h => h.imp (fun h => Option.eq_none_iff_forall_ne_some.mpr fun x hx => h x (hlast x hx))
            fun h x hx => h x (hlast x hx)
    case knife =>
      have hat : reached m.tracker.pOut (x.pos + BitVec.ofNat 32 m.roll.geo.lK) = true := Bool.eq_true_of_not_eq_false hx
      rw [hstill hon hcut]
      refine ⟨fun h => ?_, fun n before r later hk hpan ht hr hb hroom hwait => ?_,
        fun n before w later hk hpan hfull hn ht hb hw => ?_⟩
      · exact settle_count_knife (s := m) (gs := []) hp hj (passKnife_gone (s := m) hmap hat h) (Or.inl rfl) hp hj hy hrest
          hh hpl
      · refine settle_count_knife (s := m) (gs := [.drain, .space]) hp hj ?_ (Or.inr rfl) hp
          (jointFlags_sublist (s := m) hj fun q hq => ?_) hy hrest hh hpl
        · rw [passKnife_end (s := m) hmap hat hk hpan,
            panelAtKnife_reports (s := unmarked rest m) ht hr hb hroom hwait]
          rfl
        · have hmem : q ∈ before ++ r :: later := by
            rcases List.mem_append.mp hq with h | h
            · exact List.mem_append_left _ h
            · exact List.mem_append_right _ (List.mem_cons_of_mem _ h)
          exact ht.symm ▸ hmem
      · refine settle_count_knife (s := m) (gs := []) hp hj ?_ (Or.inl rfl) hp
          (jointFlags_mapped (s := m) hj fun q => ?_) hy hrest hh hpl
        · rw [passKnife_end (s := m) hmap hat hk hpan, panelAtKnife_waits (s := unmarked rest m) hfull hn ht hb hw]
          rfl
        · split <;> exact ⟨rfl, rfl, rfl⟩
    case recipe =>
      rw [hstill hon hcut]
      refine ⟨fun hd => settle_count_undrained (s := m) hp hd hm hj hrest, fun hd => ?_⟩
      intro r target hz
      rw [settle_count_recipe (s := m) hp hd hm hj hrest hz]
      refine ⟨fun z => (recipeTaken_zone i m z).1, fun z => (recipeTaken_zone i m z).2, ?_⟩
      conv_lhs => rw [recipeTaken_frame]

end Sys2Proof.Proofs
end

section
/-! SUPPORT. A switch's filter, and what its edge does at once (R76, R83, R86, R163, R177). -/

namespace Sys2Proof.Machine

open Sys2Proof.Safety

/-! ### Filters -/

section
variable (sw : Switch) (f g : Filter → Filter) (s : State)

theorem filterOf_onFilter : filterOf (onFilter sw f s).tracker sw = f (filterOf s.tracker sw) := by cases sw <;> rfl

theorem filterOf_onFilter_ne {sw' : Switch} (h : sw' ≠ sw) :
    filterOf (onFilter sw f s).tracker sw' = filterOf s.tracker sw' := by
  cases sw <;> cases sw' <;> first | rfl | exact absurd rfl h

theorem onFilter_onFilter : onFilter sw f (onFilter sw g s) = onFilter sw (f ∘ g) s := by cases sw <;> rfl

theorem onFilter_congr {f g : Filter → Filter} {s : State} (h : f (filterOf s.tracker sw) = g (filterOf s.tracker sw)) :
    onFilter sw f s = onFilter sw g s := by
  cases sw <;> simp only [filterOf] at h <;> simp only [onFilter, State.onTracker, h]

theorem reading_onFilter : reading (onFilter sw f s) sw = reading s sw := by cases sw <;> rfl

theorem onFilter_pins : (onFilter sw f s).pins = s.pins := by cases sw <;> rfl

theorem filterOf_settle (w : Work) : filterOf (settle w).tracker sw = filterOf w.1.tracker sw := by
  cases sw
  · exact settle_bladeHome w
  · exact settle_hoodUp w
  · exact settle_hoodDown w
  · exact settle_jointDetector w

end

/-- The state whose filter has taken a level. -/
def levelTaken (sw : Switch) (s : State) : State := onFilter sw (fun _ => ⟨reading s sw, none⟩) s

theorem takeLevel_same {sw : Switch} {s : State} (h : reading s sw = (filterOf s.tracker sw).level) :
    takeLevel sw s = onFilter sw (fun f => { f with timer := none }) s := if_pos h

theorem takeLevel_edge {sw : Switch} {s : State} (h : reading s sw ≠ (filterOf s.tracker sw).level) :
    takeLevel sw s = settle (edgeEffect sw (reading s sw) (levelTaken sw s)) := if_neg h

/-- A splice that leaves FIRED, its status unknown (R163). -/
theorem leaveFired_eq (s : State) : leaveFired s =
    { s with
      queue := { s.queue with orders := frozenBy none s.queue.orders }
      roll := { s.roll with planner := { s.roll.planner with
        state := .idle, status := none, pFire := none, stretch := none, expected := none, freeze := none } }
      sup := { s.sup with spliceLimit := false } } := rfl

/-- An offered capture touches neither the tracker nor the station's ports. -/
theorem offerCapture_frame (x : Pos) (s : State) :
    (offerCapture x s).tracker = s.tracker ∧ (offerCapture x s).pins = s.pins ∧ (offerCapture x s).ports = s.ports := by
  unfold offerCapture
  split
  · split
    · rw [leaveFired_eq]
      exact ⟨rfl, rfl, rfl⟩
    · exact ⟨rfl, rfl, rfl⟩
  · exact ⟨rfl, rfl, rfl⟩

/-- An edge's own effect leaves the filters, the pins and the ports. -/
theorem edgeEffect_frame (sw sw' : Switch) (level : Bool) (s : State) :
    filterOf (edgeEffect sw level s).1.tracker sw' = filterOf s.tracker sw' ∧ (edgeEffect sw level s).1.pins = s.pins ∧
      (edgeEffect sw level s).1.ports = s.ports := by
  have hhood : ∀ u : State, (deriveHood u).tracker = u.tracker ∧ (deriveHood u).pins = u.pins ∧
      (deriveHood u).ports = u.ports := by
    intro u; unfold deriveHood; dsimp only; split <;> exact ⟨rfl, rfl, rfl⟩
  have hjoint : ∀ x b (u : State), filterOf (addJoint x b u).tracker sw' = filterOf u.tracker sw' := by
    intro x b u
    cases sw' <;> · unfold addJoint State.onTracker; dsimp only; split <;> rfl
  cases sw
  case bladeHome => cases level <;> exact ⟨rfl, rfl, rfl⟩
  case hoodUp =>
    unfold edgeEffect; dsimp only; split
    · exact ⟨rfl, rfl, rfl⟩
    · obtain ⟨h1, h2, h3⟩ := hhood s
      exact ⟨by rw [h1], h2, h3⟩
  case hoodDown =>
    unfold edgeEffect; dsimp only; split
    · obtain ⟨h1, h2, h3⟩ := hhood s
      exact ⟨by rw [h1], h2, h3⟩
    · exact ⟨rfl, rfl, rfl⟩
  case jointDetector =>
    cases level
    · exact ⟨rfl, rfl, rfl⟩
    · obtain ⟨h1, h2, h3⟩ := offerCapture_frame s.tracker.pIn s
      exact ⟨(hjoint _ _ _).trans (by rw [h1]), h2, h3⟩

theorem filterOf_takeLevel (sw : Switch) (s : State) : filterOf (takeLevel sw s).tracker sw = ⟨reading s sw, none⟩ := by
  by_cases h : reading s sw = (filterOf s.tracker sw).level
  · rw [takeLevel_same h, filterOf_onFilter, h]
  · rw [takeLevel_edge h, filterOf_settle, (edgeEffect_frame sw sw _ _).1, levelTaken, filterOf_onFilter]

theorem filterOf_takeLevel_ne {sw sw' : Switch} (h' : sw' ≠ sw) (s : State) :
    filterOf (takeLevel sw s).tracker sw' = filterOf s.tracker sw' := by
  by_cases h : reading s sw = (filterOf s.tracker sw).level
  · rw [takeLevel_same h, filterOf_onFilter_ne _ _ _ h']
  · rw [takeLevel_edge h, filterOf_settle, (edgeEffect_frame sw sw' _ _).1, levelTaken, filterOf_onFilter_ne _ _ _ h']

theorem takeLevel_frame (sw : Switch) (s : State) : (takeLevel sw s).pins = s.pins ∧ (takeLevel sw s).ports = s.ports := by
  have hfilter : ∀ f, (onFilter sw f s).pins = s.pins ∧ (onFilter sw f s).ports = s.ports := fun f => by
    cases sw <;> exact ⟨rfl, rfl⟩
  by_cases h : reading s sw = (filterOf s.tracker sw).level
  · rw [takeLevel_same h]; exact hfilter _
  · obtain ⟨-, hpins, hports⟩ := edgeEffect_frame sw sw (reading s sw) (levelTaken sw s)
    rw [takeLevel_edge h, settle_pins, settle_ports, hpins, hports]
    exact hfilter _

/-- The timer of the filter plays no part. -/
theorem takeLevel_timer (sw : Switch) (x : Option Nat) (s : State) :
    takeLevel sw (onFilter sw (fun q => { q with timer := x }) s) = takeLevel sw s := by
  unfold takeLevel
  dsimp only
  rw [reading_onFilter, filterOf_onFilter, onFilter_onFilter, onFilter_onFilter]
  rfl

/-! ### Pin changes -/

section
variable {sw : Switch} {high : Bool} {s : State}

theorem exec_switch_same (h : pinOf s.pins sw = high) : exec (.switchPinChange sw high) s = .next s :=
  congrArg Host.Outcome.next (if_pos h)

theorem reading_moved : reading (s.onPins (setPin sw high)) sw = (high == polarityOf s.tracker.set sw) := by
  cases sw <;> rfl

theorem exec_switch_timed (h : pinOf s.pins sw ≠ high) (ht : filterTimeOf s.tracker.set sw ≠ 0) :
    exec (.switchPinChange sw high) s = .next (onFilter sw
      (fun _ => ⟨(filterOf s.tracker sw).level,
        if (high == polarityOf s.tracker.set sw) = (filterOf s.tracker sw).level then none
        else some (filterTimeOf s.tracker.set sw)⟩) { s with pins := setPin sw high s.pins }) := by
  have hexec : exec (.switchPinChange sw high) s = .next (onFilter sw
      (fun f => { f with
        timer := if reading (s.onPins (setPin sw high)) sw = f.level then none
          else some (filterTimeOf s.tracker.set sw) }) { s with pins := setPin sw high s.pins }) :=
    congrArg Host.Outcome.next ((if_neg h).trans (if_neg ht))
  rw [hexec, reading_moved]
  exact congrArg Host.Outcome.next (onFilter_congr sw rfl)

theorem exec_switch_untimed (h : pinOf s.pins sw ≠ high) (ht : filterTimeOf s.tracker.set sw = 0) :
    exec (.switchPinChange sw high) s = .next (takeLevel sw { s with pins := setPin sw high s.pins }) :=
  congrArg Host.Outcome.next ((if_neg h).trans (if_pos ht))

theorem exec_filterExpiry (h : (filterOf s.tracker sw).timer ≠ none) :
    exec (.filterExpiry sw) s = .next (takeLevel sw s) :=
  congrArg Host.Outcome.next (if_pos (Option.isSome_iff_ne_none.mpr h))

end

/-! ### The blade, the joint detector and the hood -/

/-- Blade home active ends a retraction after a trip (R76). -/
theorem settle_bladeHome_retract {s : State} (h : s.tracker.bladeHome.level = true) :
    (settle (s.onFormer fun f => { f with retractAfterTrip := false }, [.former])).former.retractAfterTrip = false :=
  ((turns_settle (s.onFormer fun f => { f with retractAfterTrip := false }, [.former])).retract rfl h).1

/-- A capture joins the joint list while it has a place (R86). -/
theorem capture_joints (s : State) :
    (capture s).tracker.joints =
        (if s.tracker.joints.length < 4 then s.tracker.joints ++ [⟨s.tracker.pIn, false, false⟩] else s.tracker.joints) ∧
      (capture s).tracker.droppedCaptures =
        if s.tracker.joints.length < 4 then s.tracker.droppedCaptures else min 255 (s.tracker.droppedCaptures + 1) := by
  unfold capture addJoint State.onTracker bump255
  dsimp only
  rw [(offerCapture_frame _ s).1]
  by_cases h : 4 ≤ s.tracker.joints.length
  · rw [if_pos h, if_neg (by omega), if_neg (by omega)]
    exact ⟨rfl, rfl⟩
  · rw [if_neg h, if_pos (by omega), if_pos (by omega)]
    exact ⟨rfl, rfl⟩

/-- The deviation in 24 bits, and whether it lies outside the tolerance (R24, R163). -/
theorem spliceDoneDetail_eq (tol : Nat) (x e : Pos) : spliceDoneDetail tol x e =
    le4 x.toNat ++ le3 (max (-8388608) (min 8388607 (x - e).toInt) % 16777216).toNat ++
      le1 (wt (decide ((tol : Int) < (x - e).toInt ∨ (x - e).toInt < -(tol : Int))) 1) := by
  have hoff : (tol < (x - e).toInt.natAbs) ↔ ((tol : Int) < (x - e).toInt ∨ (x - e).toInt < -(tol : Int)) := by omega
  unfold spliceDoneDetail
  dsimp only
  rw [le4_eq, le3_eq, le1_eq, wt_eq, posBytes_eq, BitVec.toNat_ofInt, decide_eq_decide.mpr hoff]
  rfl

/-- A capture in the window is the splice seen (R163). -/
theorem settle_capture_seen {s : State} {x : Pos} (hs : s.roll.planner.state = .fired)
    (hx : s.roll.planner.expected = some x) (hw : inWindow s.roll.geo s.tracker.pIn x = true) :
    (settle (capture s, [])).roll.planner.state = .idle ∧ (settle (capture s, [])).roll.planner.status = none ∧
      (settle (capture s, [])).roll.planner.jointDue = some s.tracker.pIn ∧
      (settle (capture s, [])).sup.spliceLimit = false ∧
      Noted .spliceDone (spliceDoneDetail s.roll.geo.tol s.tracker.pIn x) s (settle (capture s, [])) := by
  have hoffer : offerCapture s.tracker.pIn s = leaveFired (raise .spliceDone
      (spliceDoneDetail s.roll.geo.tol s.tracker.pIn x) (s.onPlanner fun q => { q with jointDue := some s.tracker.pIn })) := by
    unfold offerCapture
    rw [hs, hx]
    exact if_pos hw
  obtain ⟨T, hT, -⟩ := flagJoints_table (capture s)
  rw [settle_quiet, hT, capture, hoffer, leaveFired_eq]
  exact ⟨rfl, rfl, rfl, rfl, noted_of_raise rfl⟩

/-- An edge that no window awaits tells nothing of a splice. -/
theorem unnoted_edgeEffect {sw : Switch} {level : Bool} {s : State}
    (h : ∀ x, s.roll.planner.state = .fired → s.roll.planner.expected = some x → sw = .jointDetector → level = true →
      inWindow s.roll.geo s.tracker.pIn x = false) :
    Unnoted .spliceDone s (settle (edgeEffect sw level s)) := by
  have hhood : ∀ u : State, unraised (deriveHood u) = unraised u := by
    intro u; unfold deriveHood; dsimp only; split <;> rfl
  have heffect : unraised (edgeEffect sw level s).1 = unraised s := by
    cases sw
    case bladeHome => cases level <;> rfl
    case hoodUp =>
      unfold edgeEffect; dsimp only; split
      · rfl
      · exact hhood s
    case hoodDown =>
      unfold edgeEffect; dsimp only; split
      · exact hhood s
      · rfl
    case jointDetector =>
      cases level
      · rfl
      · have hoffer : offerCapture s.tracker.pIn s = s := by
          unfold offerCapture
          split
          · next e hs he => exact if_neg (by rw [h e hs he rfl rfl]; decide)
          · rfl
        show unraised (addJoint s.tracker.pIn false (offerCapture s.tracker.pIn s)) = _
        rw [hoffer]
        rfl
  exact unnoted_of_recordsOf ((congrArg Prod.snd (unraised_settle _)).trans (congrArg Prod.snd heffect))

theorem deriveHood_sup (s : State) :
    (deriveHood s).sup.hood = derivedHood s.sup.hoodDown s.tracker ∧ (deriveHood s).sup.line = s.sup.line := by
  unfold deriveHood
  dsimp only
  split
  · next h => exact ⟨h.symm, rfl⟩
  · exact ⟨rfl, rfl⟩

/-- A hood seen DOWN, its timer and the speed that a hood not DOWN forbids (R177, R185). -/
theorem deriveHood_down {s : State} {level : Bool} (h : s.sup.hoodDown = true) (hl : s.tracker.hoodDown.level = level) :
    deriveHood s = if s.sup.hood = (if level = true then HoodState.down else .lowering) then s
      else { s with sup := { s.sup with
        hood := if level = true then .down else .lowering
        hoodTimer := if level = true then none else some (s.sup.set.hoodTimeout * 1000)
        vRef := if s.sup.hood = .down then 0 else s.sup.vRef
        speedOut := if s.sup.hood = .down then 0 else s.sup.speedOut } } := by
  have hd : derivedHood s.sup.hoodDown s.tracker = if level = true then HoodState.down else .lowering := by
    rw [derivedHood, h, hl]; rfl
  unfold deriveHood
  dsimp only
  rw [hd]
  by_cases hs : s.sup.hood = if level = true then HoodState.down else .lowering
  · rw [if_pos hs, if_pos hs.symm]
  · rw [if_neg hs, if_neg (Ne.symm hs)]
    cases level <;> rfl

/-- The hood seen anywhere but at the end of LOWERING. -/
theorem settle_hoodSeen_quiet {s : State} (h : ¬(s.sup.line = .lowering ∧ s.sup.hood = .down)) :
    settle (s, [.hoodSeen]) = flagJoints s := by
  obtain ⟨f, -, hf⟩ := flagJoints_eq s
  rw [← settle_flagged]
  refine Settles.settle (k := 1) ?_ (by decide)
  have hself := flagJoints_self (jointFlags_flagJoints s)
  rw [hself]
  exact Settles.skip (if_neg (by rw [hf]; exact h)) hself (Settles.done _)

end Sys2Proof.Machine
end

section
/-! SUPPORT. LOWERING ended: the line RUNNING or HOLDING, and what the former makes of it (R62, R64, R74, R75, R77, R179,
R180). -/

namespace Sys2Proof.Machine

open Sys2Proof.Safety

/-! ### The line -/

/-- The line entered RUNNING from LOWERING, the settled condition examined. -/
def Lowered (s u : State) : Prop :=
  (∃ zs ms b r, u = { s with
    sup := { s.sup with prev := .lowering, line := .running }
    zones := zs, monitor := { s.monitor with zones := ms }, settledReported := b, router := r }) ∧
  ∀ k, k ≠ .zonesSettled → k ≠ .lineState → recordsOf k u = recordsOf k s

/-- The line entered HOLDING, the settled condition examined. -/
def Holding (s u : State) : Prop :=
  (∃ zs ms b r down hood timer, u = { s with
    sup := { s.sup with
      prev := s.sup.line, line := .holding, vPlan := 0, vRef := 0, speedOut := 0, hoodDown := down, hood := hood
      hoodTimer := timer
      hoodDelayTimer := if s.sup.set.hoodDelay = 0 then none else some (s.sup.set.hoodDelay * 100) }
    zones := zs, monitor := { s.monitor with zones := ms }, settledReported := b, router := r }) ∧
  ∀ k, k ≠ .zonesSettled → k ≠ .lineState → recordsOf k u = recordsOf k s

theorem recordsOf_setLine {k : EventKind} (hk : k ≠ .lineState) (l : LineState) (s : State) :
    recordsOf k (setLine l s) = recordsOf k s := by
  obtain ⟨zs, ms, h⟩ := retarget_eq (s := raise .lineState
    (byte1 (lineStateCode l) ++ byte1 (lineStateCode s.sup.line) ++
      byte1 (if l = .holding then causesCode (s.onSup fun v => { v with prev := v.line, line := l }).sup.causes else 0))
    (s.onSup fun v => { v with prev := v.line, line := l }))
  unfold setLine
  dsimp only
  rw [h]
  exact recordsOf_raise_ne hk.symm _ _

/-- Entry to HOLDING (R180). -/
theorem enterHolding_eq (s : State) : ∃ zs ms r down hood timer, enterLine .holding s = ({ s with
    sup := { s.sup with
      prev := s.sup.line, line := .holding, vPlan := 0, vRef := 0, speedOut := 0, hoodDown := down, hood := hood
      hoodTimer := timer
      hoodDelayTimer := if s.sup.set.hoodDelay = 0 then none else some (s.sup.set.hoodDelay * 100) }
    zones := zs, monitor := { s.monitor with zones := ms }, router := r }, [.settled false]) ∧
    ∀ k, k ≠ .lineState → recordsOf k (enterLine .holding s).1 = recordsOf k s := by
  let x : State := { s with sup := { dropSpeed s.sup with hoodDelayTimer := delayTimerFor s.sup.set.hoodDelay } }
  have hrecords : ∀ k, k ≠ .lineState → recordsOf k (setLine .holding x) = recordsOf k s :=
    fun k hk => recordsOf_setLine hk .holding x
  have henter : enterLine .holding s =
      (if s.sup.set.hoodDelay = 0 then commandHood false (setLine .holding x) else setLine .holding x, [.settled false]) :=
    rfl
  obtain ⟨zs, ms, hset⟩ := setLine_eq (s := x) .holding
  generalize setLine .holding x = y at hset henter hrecords
  generalize Three.map _ _ = r at hset
  by_cases hd : s.sup.set.hoodDelay = 0
  · rw [if_pos hd] at henter
    obtain ⟨timer, hhood⟩ := commandHood_up (s := y) (by rw [hset]; rfl) (by rw [hset]; rfl)
    generalize (if y.tracker.hoodUp.level = true then HoodState.up else .raising) = hood at hhood
    refine ⟨zs, ms, r, false, hood, timer, ?_, fun k hk => ?_⟩
    · rw [henter, hhood, hset]; rfl
    · rw [henter, hhood]; exact hrecords k hk
  · rw [if_neg hd] at henter
    refine ⟨zs, ms, r, s.sup.hoodDown, s.sup.hood, s.sup.hoodTimer, ?_, fun k hk => ?_⟩
    · rw [henter, hset]; rfl
    · rw [henter]; exact hrecords k hk

section
variable {Q : State → Prop} {k : Nat} {s : State}

/-- A RUNNING line with a hold cause holds (R180). -/
theorem leads_holding {rest : List Sig} (hl : s.sup.line = .running) (hc : noCauses s.sup.causes = false)
    (hb : s.former.state ≠ .bridge) (hj : JointFlags s) (h : ∀ u, Holding s u → Leads k rest u Q) :
    Leads (k + 4) (.causes :: rest) s Q := by
  obtain ⟨zs, ms, r, down, hood, timer, henter, hrecords⟩ := enterHolding_eq s
  have hcauses : handle .causes s = enterLine .holding s := if_pos ⟨hl, hc⟩
  refine Leads.take (k := k + 3) ?_
  rw [hcauses]
  rw [henter] at hrecords ⊢
  have hj' : JointFlags { s with
    sup := { s.sup with
      prev := s.sup.line, line := .holding, vPlan := 0, vRef := 0, speedOut := 0, hoodDown := down, hood := hood
      hoodTimer := timer
      hoodDelayTimer := if s.sup.set.hoodDelay = 0 then none else some (s.sup.set.hoodDelay * 100) }
    zones := zs, monitor := { s.monitor with zones := ms }, router := r } := hj
  rw [flagJoints_self hj']
  refine Leads.mono (j := listLoad [.settled false] + k) (by simp [listLoad, signalLoad]; omega)
    (Leads.calm (gs := [.settled false]) (rest := rest) (by simp [calmSignal]) nofun hb hj' fun u hu => h u ?_)
  obtain ⟨⟨b, r', rfl⟩, hcalm⟩ := hu
  exact ⟨⟨zs, ms, b, r', down, hood, timer, rfl⟩, fun k hz hk => (hcalm k hz).trans (hrecords k hk)⟩

/-- LOWERING ends with the hood DOWN (R179). -/
theorem leads_lowered (hl : s.sup.line = .lowering) (hh : s.sup.hood = .down) (hb : s.former.state ≠ .bridge)
    (hj : JointFlags s)
    (h : ∀ u, Lowered s u → Leads k [if noCauses s.sup.causes then .formerRun else .causes] u Q) :
    Leads (k + 4) [.hoodSeen] s Q := by
  obtain ⟨zs, ms, hset⟩ := setLine_eq (s := s) .running
  have hseen : handle .hoodSeen s =
      (setLine .running s, [.settled false, if noCauses s.sup.causes then .formerRun else .causes]) :=
    if_pos ⟨hl, hh⟩
  have hrecords : ∀ k, k ≠ .lineState → recordsOf k (setLine .running s) = recordsOf k s :=
    fun k hk => recordsOf_setLine hk .running s
  refine Leads.take (k := k + 3) ?_
  rw [hseen]
  have hj' : JointFlags (setLine .running s) := by rw [hset]; exact hj
  rw [flagJoints_self hj']
  refine Leads.mono (j := listLoad [.settled false] + k) (by simp [listLoad, signalLoad]; omega)
    (Leads.calm (gs := [.settled false]) (rest := [_]) (by simp [calmSignal]) (by rw [(setLine_line _ _).1]; decide)
      (by rw [hset]; exact hb) hj' fun u hu => h u ?_)
  obtain ⟨⟨b, r, rfl⟩, hcalm⟩ := hu
  refine ⟨⟨zs, ms, b, r, ?_⟩, fun k hz hk => (hcalm k hz).trans (hrecords k hk)⟩
  rw [hset, hl]

end

/-! ### The former at work, or with work kept -/

/-- A former at work is told nothing new (R75). -/
theorem formerRun_working {s : State} (hl : s.sup.line = .running) (hi : s.former.state ≠ .idle)
    (hh : s.former.state ≠ .held) : handle .formerRun s = quiet s := by
  show formerRun s = _
  unfold formerRun
  rw [if_neg (by simp [hl])]
  cases hs : s.former.state <;> first | rfl | exact absurd hs hi | exact absurd hs hh

theorem formerRun_resumes {s : State} (hl : s.sup.line = .running) (hs : s.former.state = .held)
    (hh : s.former.hold = .stoppedMid) : handle .formerRun s = resumeWork s := by
  show formerRun s = _
  unfold formerRun
  rw [if_neg (by simp [hl]), hs]
  exact if_pos hh

theorem formerRun_idle {s : State} (hl : s.sup.line = .running) (hs : s.former.state = .idle) :
    handle .formerRun s = (s, [.boundary]) := by
  show formerRun s = _
  unfold formerRun
  rw [if_neg (by simp [hl]), hs]

/-- What was resumed rests where the former would (R75). -/
theorem formerRests_resumed {s : State} {r : FormerState} (hr : s.former.resume = some r)
    (h : FormerRests { s with former := { s.former with state := r } }) : FormerRests (resumed s) := by
  unfold FormerRests at h ⊢
  unfold resumed
  rw [hr]
  cases r <;> first | exact h | exact fun hn => by cases hn.1

/-- Work resumed that no condition waits for (R75). -/
theorem leads_resumed {Q : State → Prop} {s : State} {r : FormerState} (hl : s.sup.line = .running)
    (hs : s.former.state = .held) (hh : s.former.hold = .stoppedMid) (hr : s.former.resume = some r) (hb : r ≠ .bridge)
    (hrest : FormerRests { s with former := { s.former with state := r } })
    (hlate : r = .wait → s.former.late = false ∧ s.former.reachedInStop = false)
    (h : ∀ T, Q { resumed s with tracker := { s.tracker with table := T } }) : Leads 3 [.formerRun] s Q := by
  have hwork : resumeWork s = (resumed s, [.former, .bridge]) := by
    rw [resumeWork_eq]
    refine if_neg fun hn => ?_
    obtain ⟨h1, h2⟩ := hlate (Option.some.inj (hr.symm.trans hn.1))
    rw [h1, h2] at hn
    exact hn.2.elim nofun nofun
  obtain ⟨T, hT, -⟩ := flagJoints_table (resumed s)
  have hlaw := jointFlags_flagJoints (resumed s)
  have hrests := formerRests_resumed hr hrest
  have hstate : (resumed s).former.state = r := by rw [resumed, hr]; rfl
  refine Leads.take (k := 2) ?_
  rw [formerRun_resumes hl hs hh, hwork]
  dsimp only
  rw [hT] at hlaw ⊢
  refine Leads.skip (k := 1) (formerTest_rests hrests) (flagJoints_self hlaw) (Leads.skip (k := 0) ?_ (flagJoints_self hlaw)
    (Leads.done (h T)))
  exact if_neg fun hn => hb (hstate.symm.trans hn.1)

/-- WAIT resumed with its trigger reached before or in the stop, or now: the stroke starts at once (R74, R75). -/
theorem leads_resumed_stroke {Q : State → Prop} {s : State} {st : StepRec} (hl : s.sup.line = .running)
    (hs : s.former.state = .held) (hh : s.former.hold = .stoppedMid) (hr : s.former.resume = some .wait)
    (hst : currentStep s = some st) (hrun : strokeRuns s.former st s.former.rep) (hj : JointFlags s)
    (hdue : s.former.late = true ∨ s.former.reachedInStop = true ∨ triggerMet s)
    (h : Q (strokeStarted st (resumed s))) : Leads 4 [.formerRun] s Q := by
  have hstate : (resumed s).former.state = .wait := by rw [resumed, hr]; rfl
  have hpleat : inPleatedStep (resumed s).former = true := by rw [inPleatedStep, hstate]
  have hj' : JointFlags (resumed s) :=
    jointFlags_refine hj rfl (fun _ => ⟨by rw [inPleatedStep, hs]; exact decide_eq_true hr, rfl⟩)
      fun r hr => ⟨r, hr, rfl, rfl, rfl⟩
  have hcur : currentStep (resumed s) = some st := hst
  have hafter : JointFlags (strokeStarted st (resumed s)) := jointFlags_strokeStarted st hj' hpleat
  refine Leads.take (k := 3) ?_
  rw [formerRun_resumes hl hs hh, resumeWork_eq]
  by_cases hd : s.former.resume = some .wait ∧ (s.former.late = true ∨ s.former.reachedInStop = true)
  · rw [if_pos hd]
    have hset := settles_startStroke hcur hrun hj' hpleat (Settles.done (strokeStarted st (resumed s)))
    intro n hn
    rw [hset n (by omega)]
    exact h
  · rw [if_neg hd]
    have htrigger : triggerMet (resumed s) := by
      rcases hdue with hdue | hdue | hdue
      · exact absurd ⟨hr, Or.inl hdue⟩ hd
      · exact absurd ⟨hr, Or.inr hdue⟩ hd
      · exact hdue
    have hbridge : handle .bridge (strokeStarted st (resumed s)) = quiet (strokeStarted st (resumed s)) :=
      if_neg fun hn => by
        have hstroke := hn.1
        unfold strokeStarted at hstroke
        dsimp only at hstroke
        split at hstroke <;> cases hstroke
    have hset := settles_wait hstate htrigger hcur hrun hj'
      (Settles.skip hbridge (flagJoints_self hafter) (Settles.done (strokeStarted st (resumed s))))
    dsimp only
    rw [flagJoints_self hj']
    exact fun n hn => (hset n (by omega)).symm ▸ h

end Sys2Proof.Machine
end

section
/-! SUPPORT. The boundary test of an IDLE former on a line that has begun to run (R62, R64, R77), and that the line, where
it still runs, runs since LOWERING. -/

namespace Sys2Proof.Machine

open Sys2Proof.Safety

/-! ### Held at the boundary -/

/-- The cause a boundary's reason passes. -/
def boundaryCauses (h : HoldReason) : HoldCauses := ⟨decide (h = .starved), decide (h = .trackFull), false⟩

/-- The former HELD for a reason, with the cause it passes (R62). -/
def heldAt (h : HoldReason) (s : State) : State :=
  { s with
    former := { s.former with state := .held, hold := h, resume := none }
    sup := { s.sup with causes := boundaryCauses h }
    router := s.router.map (notePort .hold [BitVec.ofNat 8 (causesCode (boundaryCauses h))]) }

theorem holdFor_eq {h : HoldReason} {s : State} (hl : s.sup.line = .running) (hc : s.sup.causes = ⟨false, false, false⟩)
    (hr : h = .starved ∨ h = .trackFull) : holdFor h s = heldAt h s := by
  have hcauses : { s.sup.causes with
      starved := s.sup.causes.starved || decide (h = .starved)
      trackFull := s.sup.causes.trackFull || decide (h = .trackFull) } = boundaryCauses h := by
    rw [hc]
    simp [boundaryCauses]
  have hchange : boundaryCauses h ≠ s.sup.causes := by rw [hc]; rcases hr with rfl | rfl <;> decide
  have hset : holdFor h s = setCauses { s.sup.causes with
      starved := s.sup.causes.starved || decide (h = .starved)
      trackFull := s.sup.causes.trackFull || decide (h = .trackFull) }
      (s.onFormer fun f => { f with state := .held, hold := h, resume := none }) := rfl
  rw [hset, hcauses, setCauses_eq, if_pos ⟨hchange, Or.inl hl⟩]
  rfl

theorem noted_of_same {k : EventKind} {d : List Byte} {s u t : State} (h : recordsOf k u = recordsOf k s)
    (hn : Noted k d u t) : Noted k d s t := noted_iff.mpr ((noted_iff.mp hn).trans (by rw [h]))

/-- A former HELD at its boundary holds the line (R62, R180). -/
theorem leads_heldAt {h : HoldReason} {s : State} (hl : s.sup.line = .running) (hr : h = .starved ∨ h = .trackFull) :
    Leads 4 [.causes] (heldAt h s) fun t => HeldFor h (boundaryCauses h) s t ∧
      ∀ k, k ≠ .zonesSettled → k ≠ .lineState → k ≠ .hold → recordsOf k t = recordsOf k s := by
  have hcauses : noCauses (boundaryCauses h) = false := by rcases hr with rfl | rfl <;> rfl
  have hcode : le1 (wt (boundaryCauses h).starved 1 + wt (boundaryCauses h).trackFull 2) =
      [BitVec.ofNat 8 (causesCode (boundaryCauses h))] := rfl
  have hj : JointFlags (heldAt h s) := fun hp => by cases hp
  refine leads_holding (k := 0) hl hcauses nofun hj fun u hu => Leads.done ?_
  obtain ⟨⟨zs, ms, b, r, down, hood, timer, rfl⟩, hrecords⟩ := hu
  refine ⟨⟨rfl, rfl, rfl, rfl, hl, rfl, rfl, rfl, rfl, rfl, ?_⟩, fun k hz hk hh => ?_⟩
  · rw [hcode]
    exact noted_of_raise (hrecords .hold nofun nofun)
  · exact (hrecords k hz hk).trans (recordsOf_raise_ne (Ne.symm hh) [BitVec.ofNat 8 (causesCode (boundaryCauses h))] s)

/-! ### A bridge begun (R77) -/

def bridgeBegun (i : Fin 4) (s : State) : State :=
  { s with
    former := { s.former with state := .bridge, hold := .none, resume := none, bladeSide := false, bridgeTarget := some i }
    tracker := { s.tracker with map := s.tracker.map ++ [⟨.bridgeStart, s.tracker.pOut, none⟩] }
    dose := { s.dose with pendingRecipe := some i } }

theorem startBridge_eq {s : State} (i : Fin 4) (hc : s.sup.causes = ⟨false, false, false⟩) :
    startBridge i s = bridgeBegun i s := by
  unfold startBridge
  dsimp only
  rw [withdrawCauses_none _ (by show s.sup.causes.starved = false; rw [hc])
    (by show s.sup.causes.trackFull = false; rw [hc])]
  rfl

/-- The signals of a bridge that goes on. -/
def bridgingSignal : Sig → Bool
  | .search _ | .drain | .bridge | .approach | .deadline => true
  | _ => false

/-- A bridge whose tunnel is not drained goes on, whatever the planner does meanwhile. -/
theorem cascade_bridging {w : State} {i : Fin 4} (hs : w.former.state = .bridge) (hb : w.former.bridgeTarget = some i)
    (hp : w.dose.pendingRecipe = some i) (hr : w.dose.tunnelRecipe ≠ some i) (hd : ¬tunnelDrained w) (n : Nat)
    {l : List Sig} (hl : ∀ g ∈ l, bridgingSignal g = true) : core (cascade n l w) = core w := by
  refine cascade_induct (P := fun l u => core u = core w ∧ ∀ g ∈ l, bridgingSignal g = true) (fun _ _ h => h.1) ?_ n l w
    ⟨rfl, hl⟩
  rintro g rest u ⟨hu, hl⟩
  have hg := hl g (List.mem_cons_self ..)
  have hrest : ∀ g' ∈ rest, bridgingSignal g' = true := fun g' h => hl g' (List.mem_cons_of_mem _ h)
  have hdrained : drained u = false := by
    have hsame : drained u = drained w := by
      unfold drained inTunnel
      rw [core_dose hu, core_tracker hu]
    rw [hsame]
    exact Bool.eq_false_iff.mpr fun h => hd ((drained_iff w).mp h)
  have hhandle : core (handle g u).1 = core u ∧ ∀ g' ∈ (handle g u).2, bridgingSignal g' = true := by
    have hquiet : handle g u = quiet u → core (handle g u).1 = core u ∧ ∀ g' ∈ (handle g u).2, bridgingSignal g' = true :=
      fun h => by rw [h]; exact ⟨rfl, nofun⟩
    cases g <;> try cases hg
    case drain =>
      refine hquiet ?_
      show drainTest u = _
      unfold drainTest
      rw [core_dose hu, hp, hdrained]
      rfl
    case bridge =>
      refine hquiet (if_neg fun h => hr ?_)
      rw [← core_dose hu, ← h.2.2.1, core_former hu, hb]
    case search b =>
      refine ⟨core_search u b, fun g' hg' => ?_⟩
      have hraises := raises_of_mem hg'
      cases g' <;> first | rfl | cases hraises
    case deadline =>
      refine ⟨core_deadlineTest u, fun g' hg' => ?_⟩
      have hraises := raises_of_mem hg'
      cases hraises
    case approach =>
      refine ⟨core_approachTest u, fun g' hg' => ?_⟩
      have hraises := raises_of_mem hg'
      cases hraises
  obtain ⟨hcore, hsignals⟩ := hhandle
  have hflag : flagJoints (handle g u).1 = (handle g u).1 :=
    flagJoints_idle (Or.inl (by rw [inPleatedStep, core_former (hcore.trans hu), hs]))
  rw [hflag]
  exact ⟨hcore.trans hu, fun g' hg' => (List.mem_append.mp hg').elim (hsignals g') (hrest g')⟩

/-! ### The boundary test -/

theorem workInFormation_idle {f : Former} (hs : f.state = .idle) (hp : f.panel = none) : workInFormation f = false := by
  simp [workInFormation, bridgeRunning, hs, hp]

section
variable {s : State} (hl : s.sup.line = .running) (hc : s.sup.causes = ⟨false, false, false⟩)
  (hs : s.former.state = .idle) (hp : s.former.panel = none)
include hl hc hs hp

/-- No order: STARVED, and the empty queue told (R62). -/
theorem leads_starved (ho : s.queue.orders = []) :
    Leads 5 [.boundary] s fun t => HeldFor .starved ⟨true, false, false⟩ s t ∧ Noted .runQueueEmpty [] s t := by
  have hnot : ¬(s.former.state = .held ∧ s.former.hold = .starved) := fun h => by cases hs.symm.trans h.1
  have htest : handle .boundary s = (heldAt .starved (raise .runQueueEmpty [] s), [.causes]) := by
    show boundaryTest s = _
    unfold boundaryTest headOrder
    rw [if_neg (by rw [workInFormation_idle hs hp]; decide), ho]
    dsimp only [List.head?_nil]
    rw [if_neg hnot, holdFor_eq (s := raise .runQueueEmpty [] s) hl hc (Or.inl rfl)]
  refine Leads.take (k := 4) ?_
  rw [htest, flagJoints_idle (Or.inl rfl)]
  refine (leads_heldAt (s := raise .runQueueEmpty [] s) hl (Or.inl rfl)).weaken fun t ht => ?_
  obtain ⟨⟨h1, h2, h3, h4, h5, h6, h7, h8, h9, h10, hnote⟩, hrecords⟩ := ht
  exact ⟨⟨h1, h2, h3, h4, h5, h6, h7, h8, h9, h10, noted_of_same (recordsOf_raise_ne (by decide) _ _) hnote⟩,
    noted_of_raise (hrecords .runQueueEmpty nofun nofun nofun)⟩

/-- No room for what comes next: TRACK_FULL (R62). -/
theorem leads_trackFull {o : Order} {os : List Order} (ho : s.queue.orders = o :: os)
    (hfull : (s.dose.tunnelRecipe ≠ some o.recipe ∧ 64 - s.tracker.map.length < 2) ∨
      (s.dose.tunnelRecipe = some o.recipe ∧ (32 ≤ s.tracker.table.length ∨ 64 - s.tracker.map.length < 4))) :
    Leads 5 [.boundary] s (HeldFor .trackFull ⟨false, true, false⟩ s) := by
  have htest : handle .boundary s = (heldAt .trackFull s, [.causes]) := by
    show boundaryTest s = _
    unfold boundaryTest headOrder freeMarks freeRecords
    rw [if_neg (by rw [workInFormation_idle hs hp]; decide), ho]
    dsimp only [List.head?_cons]
    rw [holdFor_eq hl hc (Or.inr rfl)]
    rcases hfull with ⟨hr, hm⟩ | ⟨hr, hm⟩
    · rw [if_pos hr, if_pos hm]
    · rw [if_neg (not_not.mpr hr), if_pos (hm.imp_left fun h => by omega)]
  refine Leads.take (k := 4) ?_
  rw [htest, flagJoints_idle (Or.inl rfl)]
  exact (leads_heldAt hl (Or.inr rfl)).weaken fun t ht => ht.1

/-- Another recipe: a bridge (R77). -/
theorem leads_bridgeBegun {o : Order} {os : List Order} (ho : s.queue.orders = o :: os)
    (hr : s.dose.tunnelRecipe ≠ some o.recipe) (hm : 2 ≤ 64 - s.tracker.map.length) (hd : ¬tunnelDrained s) :
    Leads 1 [.boundary] s fun t => core t = core (bridgeBegun o.recipe s) := by
  have htest : handle .boundary s = (bridgeBegun o.recipe s, [.search false, .drain, .bridge]) := by
    show boundaryTest s = _
    unfold boundaryTest headOrder freeMarks
    rw [if_neg (by rw [workInFormation_idle hs hp]; decide), ho]
    dsimp only [List.head?_cons]
    rw [if_pos hr, if_neg (by omega), if_pos hl, startBridge_eq o.recipe hc]
  refine Leads.take (k := 0) ?_
  rw [htest, flagJoints_idle (Or.inl rfl)]
  exact fun n _ => cascade_bridging (w := bridgeBegun o.recipe s) rfl rfl rfl hr hd n (by simp [bridgingSignal])

/-- What the boundary test makes of an IDLE former on a RUNNING line (R62, R64, R77). -/
theorem leads_boundary : Leads 5 [.boundary] s (BoundaryTaken s) := by
  intro n hn
  refine ⟨fun ho => leads_starved hl hc hs hp ho n hn, fun o os ho =>
    ⟨fun hr hm => ?_, fun hr hm hd => ?_, fun hr hm => ?_, fun hr h32 hm hrun => ?_⟩⟩
  · exact leads_trackFull hl hc hs hp ho (Or.inl ⟨hr, hm⟩) n hn
  · have hcore := leads_bridgeBegun hl hc hs hp ho hr hm hd n (by omega)
    exact ⟨core_former (s := bridgeBegun o.recipe s) hcore, core_tracker (s := bridgeBegun o.recipe s) hcore,
      core_dose (s := bridgeBegun o.recipe s) hcore, core_active (s := bridgeBegun o.recipe s) hcore,
      (core_line (s := bridgeBegun o.recipe s) hcore).trans hl⟩
  · exact leads_trackFull hl hc hs hp ho (Or.inr ⟨hr, hm⟩) n hn
  · refine leads_startPanel (k := 0) (Q := fun t => t.former = leadEntered s ∧ t.tracker = panelBegun o s.tracker ∧
      t.queue.active = true ∧ t.sup.line = .running) (workInFormation_idle hs hp) ho hr h32 (by omega) hl
      (by rw [hc]) (by rw [hc]) hrun (fun t hf ht ha _ hmot _ _ => Leads.done ⟨hf, ht, ha, ?_⟩) n hn
    exact (congrArg (fun m => m.1.line) hmot).trans hl

end

/-! ### A line that runs since LOWERING -/

/-- The line runs since LOWERING, the hood DOWN. -/
def RunsFromLowering (s : State) : Prop := s.sup.line = .running ∧ s.sup.prev = .lowering ∧ s.sup.hood = .down

/-- The signals that lead neither to a boundary nor to another line state, a panel's or a bridge's end apart. -/
def tameSignal : Sig → Bool
  | .former | .search _ | .drain | .bridge | .settled _ | .warm | .stopCheck | .approach | .deadline => true
  | _ => false

def Tame (gs : List Sig) : Prop := ∀ g ∈ gs, tameSignal g = true

theorem tame_iff (gs : List Sig) : Tame gs ↔ gs.all tameSignal = true := List.all_eq_true.symm

/-- What is still to be told, and how the line stands, from the first boundary test of a line that LOWERING brought to
RUNNING on: one boundary at most is due, and the cause it may pass is told before anything else. -/
inductive StartUp : List Sig → State → Prop
  /-- No boundary is due. -/
  | runs {l : List Sig} {s : State} (h : RunsFromLowering s) (hl : Tame l) : StartUp l s
  /-- A panel or a bridge has ended. -/
  | ends {l : List Sig} {s : State} (h : RunsFromLowering s) (hl : Tame l) : StartUp (.reportEnd :: .boundary :: l) s
  /-- The boundary test is due. -/
  | bound {l : List Sig} {s : State} (h : RunsFromLowering s) (hl : Tame l) : StartUp (.boundary :: l) s
  /-- It has found a cause. -/
  | found {l : List Sig} {s : State} (h : RunsFromLowering s) (hf : s.former.state = .held)
      (hc : noCauses s.sup.causes = false) (hl : Tame l) : StartUp (.causes :: l) s
  /-- The line holds for it. -/
  | holds {l : List Sig} {s : State} (h : s.sup.line = .holding) (hf : s.former.state = .held) (hl : Tame l) : StartUp l s
  /-- The line stops. -/
  | off {l : List Sig} {s : State} (h : offLine s.sup.line) (hl : ∀ g ∈ l, g ≠ .hoodSeen) : StartUp l s

theorem StartUp.of_same {l : List Sig} {s t : State} (hs : t.sup = s.sup) (hf : t.former = s.former) (h : StartUp l s) :
    StartUp l t := by
  have hran : RunsFromLowering s → RunsFromLowering t := fun h => by unfold RunsFromLowering; rw [hs]; exact h
  cases h with
  | runs h hl => exact .runs (hran h) hl
  | ends h hl => exact .ends (hran h) hl
  | bound h hl => exact .bound (hran h) hl
  | found h hst hc hl => exact .found (hran h) (hf ▸ hst) (hs ▸ hc) hl
  | holds h hst hl => exact .holds (hs ▸ h) (hf ▸ hst) hl
  | off h hl => exact .off (hs ▸ h) hl

theorem StartUp.line {l : List Sig} {s : State} (h : StartUp l s) (hl : s.sup.line = .running) : RunsFromLowering s := by
  cases h with
  | runs h _ | ends h _ | bound h _ | found h _ _ _ => exact h
  | holds h _ _ => cases hl.symm.trans h
  | off h _ => exact absurd hl h.1

/-- The two signals of the line that a RUNNING or HOLDING line does not hear. -/
theorem handle_line_quiet {g : Sig} {s : State} (hg : g = .warm ∨ g = .stopCheck)
    (hl : s.sup.line = .running ∨ s.sup.line = .holding) : handle g s = quiet s := by
  rcases hg with rfl | rfl
  · exact if_neg fun h => by rcases hl with hl | hl <;> cases hl.symm.trans h.1
  · exact if_neg fun h => by rcases hl with hl | hl <;> cases hl.symm.trans h.1

theorem tame_lineSignal {g : Sig} (hg : tameSignal g = true) (h : lineSignal g = true) : g = .warm ∨ g = .stopCheck := by
  rcases lineSignal_cases h with ⟨c, rfl⟩ | rfl | rfl | rfl | rfl | rfl
  · cases hg
  · cases hg
  · exact .inl rfl
  · cases hg
  · exact .inr rfl
  · cases hg

/-- Nothing but tame signals, or a panel's or a bridge's end. -/
def TameOrEnd (gs : List Sig) : Prop := gs.all tameSignal = true ∨ gs = [.reportEnd, .boundary, .stopCheck]

theorem tameOrEnd_formerTest (s : State) : TameOrEnd (formerTest s).2 := by
  rcases formerBrings_formerTest s with h | h | h | h <;> rw [h]
  · exact .inl rfl
  · exact .inl rfl
  · exact .inl rfl
  · exact .inr rfl

/-- Of the tame signals the former's and the bridge's test alone may bring an end. -/
theorem tameOrEnd_handle {g : Sig} {s : State} (hg : tameSignal g = true)
    (hl : s.sup.line = .running ∨ s.sup.line = .holding) : TameOrEnd (handle g s).2 := by
  have hclosed : (∀ g', raises g g' = true → tameSignal g' = true) → TameOrEnd (handle g s).2 :=
    fun h => .inl (List.all_eq_true.mpr fun g' hg' => h g' (raises_of_mem hg'))
  cases g <;> try cases hg
  case former => exact tameOrEnd_formerTest s
  case bridge =>
    show TameOrEnd (bridgeTest s).2
    unfold bridgeTest; split
    · exact .inr rfl
    · exact .inl rfl
  case warm => rw [handle_line_quiet (.inl rfl) hl]; exact .inl rfl
  case stopCheck => rw [handle_line_quiet (.inr rfl) hl]; exact .inl rfl
  all_goals exact hclosed fun g' hr => by cases g' <;> first | rfl | cases hr

theorem holdFor_found (h : HoldReason) (s : State) (hr : h = .starved ∨ h = .trackFull) :
    (holdFor h s).former.state = .held ∧ noCauses (holdFor h s).sup.causes = false := by
  unfold holdFor
  dsimp only
  rw [setCauses_eq]
  refine ⟨rfl, ?_⟩
  rcases hr with rfl | rfl <;> simp [noCauses]

/-- The boundary test on a RUNNING line. -/
theorem boundaryTest_running {s : State} (hl : s.sup.line = .running) :
    Tame (boundaryTest s).2 ∨
      ((boundaryTest s).2 = [.causes] ∧ (boundaryTest s).1.former.state = .held ∧
        noCauses (boundaryTest s).1.sup.causes = false) := by
  have hfound : ∀ h u, (h = .starved ∨ h = .trackFull) → Tame (holdFor h u, [Sig.causes]).2 ∨
      ((holdFor h u, [Sig.causes]).2 = [.causes] ∧ (holdFor h u, [Sig.causes]).1.former.state = .held ∧
        noCauses (holdFor h u, [Sig.causes]).1.sup.causes = false) :=
    fun h u hr => .inr ⟨rfl, holdFor_found h u hr⟩
  unfold boundaryTest; split
  · exact .inl nofun
  · split
    · exact hfound _ _ (.inl rfl)
    · split
      · split
        · exact hfound _ _ (.inr rfl)
        · exact .inl ((tame_iff _).mpr rfl)
      · split
        · exact hfound _ _ (.inr rfl)
        · exact .inl ((tame_iff _).mpr rfl)

theorem runsFromLowering_handle {g : Sig} {s : State} (hg : lineSignal g = false) (h : RunsFromLowering s) :
    RunsFromLowering (handle g s).1 := by
  have hm := motion_handle g s hg
  exact ⟨(congrArg (fun m => m.1.line) hm).trans h.1, (congrArg (fun m => m.1.prev) hm).trans h.2.1,
    (congrArg (fun m => m.1.hood) hm).trans h.2.2⟩

theorem Tame.append {a b : List Sig} (ha : Tame a) (hb : Tame b) : Tame (a ++ b) :=
  fun g hg => (List.mem_append.mp hg).elim (ha g) (hb g)

/-- A tame signal on a line that runs. -/
theorem startUp_runs {g : Sig} {rest : List Sig} {s : State} (h : RunsFromLowering s) (hg : tameSignal g = true)
    (hl : Tame rest) : StartUp ((handle g s).2 ++ rest) (handle g s).1 := by
  by_cases hline : lineSignal g = true
  · rw [handle_line_quiet (tame_lineSignal hg hline) (.inl h.1)]
    exact .runs h hl
  · have hran := runsFromLowering_handle (Bool.eq_false_iff.mpr hline) h
    rcases tameOrEnd_handle hg (.inl h.1) with ht | ht
    · exact .runs hran (((tame_iff _).mpr ht).append hl)
    · rw [ht]
      exact .ends hran (Tame.append (a := [.stopCheck]) ((tame_iff _).mpr rfl) hl)

/-- A tame signal on a line that holds for a former HELD. -/
theorem startUp_holds {g : Sig} {rest : List Sig} {s : State} (h : s.sup.line = .holding) (hf : s.former.state = .held)
    (hg : tameSignal g = true) (hl : Tame rest) : StartUp ((handle g s).2 ++ rest) (handle g s).1 := by
  have hquiet : handle g s = quiet s → StartUp ((handle g s).2 ++ rest) (handle g s).1 := fun hq => by
    rw [hq]; exact .holds h hf hl
  have happart : lineSignal g = false → apartSignal g = true → g ≠ .former → g ≠ .bridge →
      StartUp ((handle g s).2 ++ rest) (handle g s).1 := by
    intro hline hapart hnf hnb
    refine .holds ((congrArg (fun m => m.1.line) (motion_handle g s hline)).trans h)
      (by rw [production_former (production_handle s hapart)]; exact hf) (Tame.append (fun g' hg' => ?_) hl)
    rcases tameOrEnd_handle hg (.inr h) with ht | ht
    · exact (tame_iff _).mpr ht g' hg'
    · have hraises := raises_of_mem (g := g) (g' := .reportEnd) (s := s) (by rw [ht]; exact List.mem_cons_self ..)
      cases g <;> first | exact absurd rfl hnf | exact absurd rfl hnb | cases hraises
  cases g <;> try cases hg
  case former =>
    have hkept : handle .former s = quiet (keepReached s) := by
      show formerTest s = _
      unfold formerTest
      rw [hf]
    rw [hkept]
    refine .holds ?_ ?_ hl
    · show (keepReached s).sup.line = _
      unfold keepReached; split <;> exact h
    · show (keepReached s).former.state = _
      unfold keepReached; split <;> exact hf
  case bridge => exact hquiet (if_neg fun hb => by cases hf.symm.trans hb.1)
  case warm => exact hquiet (handle_line_quiet (.inl rfl) (.inr h))
  case stopCheck => exact hquiet (handle_line_quiet (.inr rfl) (.inr h))
  all_goals exact happart rfl rfl nofun nofun

/-- Every signal keeps it. -/
theorem startUp_step {g : Sig} {rest : List Sig} {s : State} (h : StartUp (g :: rest) s) :
    StartUp ((handle g s).2 ++ rest) (handle g s).1 := by
  cases h with
  | runs h hl => exact startUp_runs h (hl g (List.mem_cons_self ..)) fun g' hg' => hl g' (List.mem_cons_of_mem _ hg')
  | @ends l _ h hl =>
    by_cases hp : s.sup.stopPending = true
    · have henter : handle .reportEnd s = enterLine .stopping s := if_pos hp
      rw [henter]
      refine .off (by rw [enterLine_line s (l := .stopping) (by decide)]; exact ⟨nofun, nofun, nofun⟩) ?_
      rintro g' hg' rfl
      rcases List.mem_append.mp hg' with hg' | hg'
      · have hraises := raises_of_mem (g := .reportEnd) (s := s) (by rw [henter]; exact hg')
        cases hraises
      · cases hg' with
        | tail _ hg' => cases hl _ hg'
    · have hquiet : handle .reportEnd s = quiet s := if_neg hp
      rw [hquiet]
      exact .bound h hl
  | bound h hl =>
    have hran := runsFromLowering_handle (g := .boundary) rfl h
    rcases boundaryTest_running h.1 with ht | ⟨ht, hheld, hcauses⟩
    · exact .runs hran (Tame.append ht hl)
    · rw [show (handle .boundary s).2 = [.causes] from ht]
      exact .found hran hheld hcauses hl
  | found h hf hc hl =>
    obtain ⟨zs, ms, r, down, hood, timer, henter, -⟩ := enterHolding_eq s
    have hcauses : handle .causes s = enterLine .holding s := if_pos ⟨h.1, hc⟩
    rw [hcauses, henter]
    exact .holds rfl hf (Tame.append (a := [.settled false]) ((tame_iff _).mpr rfl) hl)
  | holds h hf hl =>
    exact startUp_holds h hf (hl g (List.mem_cons_self ..)) fun g' hg' => hl g' (List.mem_cons_of_mem _ hg')
  | off h hl =>
    obtain ⟨hoff, hsignals⟩ := offLine_handle (hl g (List.mem_cons_self ..)) h
    exact .off hoff fun g' hg' =>
      (List.mem_append.mp hg').elim (hsignals g') fun hg' => hl g' (List.mem_cons_of_mem _ hg')

/-- From the boundary test on, a line that runs at the end runs since LOWERING. -/
theorem cascade_startUp {s : State} (h : RunsFromLowering s) (n : Nat) :
    (cascade n [.boundary] s).sup.line = .running → RunsFromLowering (cascade n [.boundary] s) := by
  refine cascade_induct (P := StartUp) (Q := fun t => t.sup.line = .running → RunsFromLowering t) (fun _ _ h => h.line)
    (fun g rest u hu => ?_) n [.boundary] s (.bound h nofun)
  obtain ⟨f, -, hf⟩ := flagJoints_eq (handle g u).1
  rw [hf]
  exact StartUp.of_same (s := (handle g u).1) rfl rfl (startUp_step hu)

end Sys2Proof.Machine
end

section
/-! SUPPORT. The hood seen down by its switch, and the edge of each switch. -/

namespace Sys2Proof.Machine

open Sys2Proof.Safety

/-- The hood seen DOWN, its supervisor's readings aside, with the records of the panels as the joint flags leave them. -/
def seenDown (s : State) (T : List PanelRec) (timer : Option Nat) (v o : Nat) : State :=
  { s with
    tracker := { s.tracker with table := T }
    sup := { s.sup with hood := .down, hoodTimer := timer, vRef := v, speedOut := o } }

/-- What the hood's derived state, and all that follows from it, leads to. -/
def LowersTo (s : State) (Q : State → Prop) : Prop := Q (settle (deriveHood s, [.hoodSeen]))

/-- The hood seen DOWN in LOWERING (R177, R179). -/
theorem settle_lowered {Q : State → Prop} {k : Nat} {s : State} (hd : s.sup.hoodDown = true)
    (hv : s.tracker.hoodDown.level = true) (hl : s.sup.line = .lowering) (hb : s.former.state ≠ .bridge)
    (h : ∀ T timer v o u, (JointFlags s → T = s.tracker.table) → JointFlags u → Lowered (seenDown s T timer v o) u →
      Leads k [if noCauses s.sup.causes then .formerRun else .causes] u Q) (hk : k + 4 ≤ cascadeFuel) :
    LowersTo s Q := by
  unfold LowersTo
  have hderive : ∃ timer v o, deriveHood s = seenDown s s.tracker.table timer v o := by
    rw [deriveHood_down hd hv]
    by_cases hs : s.sup.hood = .down
    · rw [if_pos (by rw [if_pos rfl]; exact hs)]
      refine ⟨s.sup.hoodTimer, s.sup.vRef, s.sup.speedOut, ?_⟩
      unfold seenDown
      rw [← hs]
    · rw [if_neg (by rw [if_pos rfl]; exact hs)]
      exact ⟨_, _, _, rfl⟩
  obtain ⟨timer, v, o, hderive⟩ := hderive
  obtain ⟨T, hT, hsame⟩ := flagJoints_table (seenDown s s.tracker.table timer v o)
  have hlaw := jointFlags_flagJoints (seenDown s s.tracker.table timer v o)
  have hstate : flagJoints (seenDown s s.tracker.table timer v o) = seenDown s T timer v o := hT
  rw [hstate] at hlaw
  rw [hderive, ← settle_flagged, hstate]
  refine Leads.settle (k := k + 4) ?_ hk
  rw [flagJoints_self hlaw]
  refine leads_lowered (s := seenDown s T timer v o) hl rfl hb hlaw fun u hu => h T timer v o u hsame ?_ hu
  obtain ⟨⟨zs, ms, b, r, rfl⟩, -⟩ := hu
  exact hlaw

theorem noCauses_iff (c : HoldCauses) : noCauses c = true ↔ c = ⟨false, false, false⟩ := by
  obtain ⟨a, b, d⟩ := c
  cases a <;> cases b <;> cases d <;> simp [noCauses]

theorem recordsOf_strokeStarted (st : StepRec) (s : State) : recordsOf .strokeLate (strokeStarted st s) =
    if s.former.late = true then
      (recordsOf .strokeLate s).map (Option.map (noteRecord (le2 (s.former.panel.getD 0).toNat)))
    else recordsOf .strokeLate s := by
  split
  · next h =>
    have hrouter : (strokeStarted st s).router = (raise .strokeLate (le2 (s.former.panel.getD 0).toNat) s).router := if_pos h
    rw [recordsOf_router hrouter, recordsOf_raise_same]
  · next h => exact recordsOf_router (if_neg h)

/-- The line's own change is no part of what a boundary test finds and leaves. -/
theorem boundaryTaken_lowered {s u t : State} {timer : Option Nat} {v o : Nat}
    (hu : Lowered (seenDown s s.tracker.table timer v o) u) (h : BoundaryTaken u t) : BoundaryTaken s t := by
  obtain ⟨⟨zs, ms, b, r, rfl⟩, hrecords⟩ := hu
  obtain ⟨hempty, hwork⟩ := h
  have hhold : recordsOf .hold _ = recordsOf .hold s := hrecords .hold nofun nofun
  refine ⟨fun ho => ?_, fun o os ho => ?_⟩
  · obtain ⟨⟨h1, h2, h3, h4, h5, h6, h7, h8, h9, h10, hnote⟩, hqueue⟩ := hempty ho
    exact ⟨⟨h1, h2, h3, h4, h5, h6, h7, h8, h9, h10, noted_of_same hhold hnote⟩,
      noted_of_same (hrecords .runQueueEmpty nofun nofun) hqueue⟩
  · obtain ⟨hmarks, hbridge, hfull, hpanel⟩ := hwork o os ho
    refine ⟨fun hr hm => ?_, hbridge, fun hr hm => ?_, hpanel⟩
    · obtain ⟨h1, h2, h3, h4, h5, h6, h7, h8, h9, h10, hnote⟩ := hmarks hr hm
      exact ⟨h1, h2, h3, h4, h5, h6, h7, h8, h9, h10, noted_of_same hhold hnote⟩
    · obtain ⟨h1, h2, h3, h4, h5, h6, h7, h8, h9, h10, hnote⟩ := hfull hr hm
      exact ⟨h1, h2, h3, h4, h5, h6, h7, h8, h9, h10, noted_of_same hhold hnote⟩

theorem leads_formerRun_idle {Q : State → Prop} {k : Nat} {s : State} (hl : s.sup.line = .running)
    (hs : s.former.state = .idle) (hj : JointFlags s) (h : Leads k [.boundary] s Q) : Leads (k + 1) [.formerRun] s Q := by
  refine Leads.take ?_
  rw [formerRun_idle hl hs, flagJoints_self hj]
  exact h

section
variable {s : State} (hd : s.sup.hoodDown = true) (hv : s.tracker.hoodDown.level = true) (hl : s.sup.line = .lowering)
include hd hv hl

/-- With a hold cause the line goes on to HOLDING (R180). -/
theorem settle_lowered_holds (hc : s.sup.causes ≠ ⟨false, false, false⟩) (hb : s.former.state ≠ .bridge) :
    LowersTo s fun t => t.sup.line = .holding ∧ t.sup.prev = .running ∧ t.sup.causes = s.sup.causes ∧ t.sup.vPlan = 0 ∧
      t.sup.vRef = 0 ∧ t.sup.speedOut = 0 ∧ t.former = s.former := by
  have hcauses : noCauses s.sup.causes = false := Bool.eq_false_iff.mpr (mt (noCauses_iff _).mp hc)
  refine settle_lowered (k := 4) hd hv hl hb (fun T timer v o u _ hj hu => ?_) (by decide)
  obtain ⟨⟨zs, ms, b, r, rfl⟩, -⟩ := hu
  rw [hcauses]
  refine leads_holding (k := 0) rfl hcauses hb hj fun u hu => Leads.done ?_
  obtain ⟨⟨zs, ms, b, r, down, hood, timer, rfl⟩, -⟩ := hu
  exact ⟨rfl, rfl, rfl, rfl, rfl, rfl, rfl⟩

variable (hc : s.sup.causes = ⟨false, false, false⟩)
include hc

/-- A former at work goes on. -/
theorem settle_lowered_works (hi : s.former.state ≠ .idle) (hh : s.former.state ≠ .held) (hb : s.former.state ≠ .bridge) :
    LowersTo s fun t => RunsFromLowering t ∧ t.former = s.former := by
  refine settle_lowered (k := 1) hd hv hl hb (fun T timer v o u _ hj hu => ?_) (by decide)
  obtain ⟨⟨zs, ms, b, r, rfl⟩, -⟩ := hu
  rw [(noCauses_iff _).mpr hc]
  exact Leads.skip (formerRun_working rfl hi hh) (flagJoints_self hj) (Leads.done ⟨⟨rfl, rfl, rfl⟩, rfl⟩)

/-- Work kept is resumed (R75). -/
theorem settle_lowered_resumes {r : FormerState} (hs : s.former.state = .held) (hh : s.former.hold = .stoppedMid)
    (hr : s.former.resume = some r) (hb : r ≠ .bridge)
    (hrest : FormerRests { s with former := { s.former with state := r } })
    (hlate : r = .wait → s.former.late = false ∧ s.former.reachedInStop = false) :
    LowersTo s fun t => RunsFromLowering t ∧
      t.former = { s.former with state := r, resume := none, hold := .none, reachedInStop := false } := by
  refine settle_lowered (k := 3) hd hv hl (by rw [hs]; decide) (fun T timer v o u _ hj hu => ?_) (by decide)
  obtain ⟨⟨zs, ms, b, r', rfl⟩, -⟩ := hu
  rw [(noCauses_iff _).mpr hc]
  refine leads_resumed rfl hs hh hr hb hrest hlate fun T' => ⟨⟨rfl, rfl, rfl⟩, ?_⟩
  show { s.former with state := s.former.resume.getD .idle, resume := none, hold := .none, reachedInStop := false } = _
  rw [hr]
  rfl

/-- A trigger already reached starts its stroke at once (R74, R75). -/
theorem settle_lowered_starts {i : Nat} {st : StepRec} (hs : s.former.state = .held) (hh : s.former.hold = .stoppedMid)
    (hr : s.former.resume = some .wait) (hi : s.former.step = some i) (hst : (patternAhead s).steps[i]? = some st)
    (hrun : strokeRuns s.former st s.former.rep) (hj : JointFlags s)
    (hdue : s.former.late = true ∨ s.former.reachedInStop = true ∨ triggerMet s) :
    LowersTo s fun t => RunsFromLowering t ∧ t.former = (strokeStarted st (resumed s)).former ∧
      t.tracker = (strokeStarted st (resumed s)).tracker ∧
      recordsOf .strokeLate t = recordsOf .strokeLate (strokeStarted st (resumed s)) := by
  refine settle_lowered (k := 4) hd hv hl (by rw [hs]; decide) (fun T timer v o u hT hju hu => ?_) (by decide)
  obtain rfl := hT hj
  obtain ⟨⟨zs, ms, b, r, rfl⟩, hrecords⟩ := hu
  have hlate := hrecords .strokeLate nofun nofun
  rw [(noCauses_iff _).mpr hc]
  refine leads_resumed_stroke rfl hs hh hr ((currentStep_eq hi).trans hst) hrun hju hdue ⟨⟨rfl, rfl, rfl⟩, rfl, rfl, ?_⟩
  rw [recordsOf_strokeStarted, recordsOf_strokeStarted]
  exact congrArg (fun x => if s.former.late = true then x.map (Option.map (noteRecord (le2 (s.former.panel.getD 0).toNat)))
    else x) hlate

/-- An IDLE former makes its boundary test (R62, R64, R77). -/
theorem settle_lowered_boundary (hs : s.former.state = .idle) (hp : s.former.panel = none) :
    LowersTo s fun t => BoundaryTaken s t ∧ (t.sup.line = .running → RunsFromLowering t) := by
  have hj : JointFlags s := fun hin => by rw [inPleatedStep, hs] at hin; cases hin
  refine settle_lowered (k := 6) hd hv hl (by rw [hs]; decide) (fun T timer v o u hT hju hu => ?_) (by decide)
  obtain rfl := hT hj
  have hstate : RunsFromLowering u ∧ u.sup.causes = s.sup.causes ∧ u.former = s.former := by
    obtain ⟨⟨zs, ms, b, r, rfl⟩, -⟩ := hu
    exact ⟨⟨rfl, rfl, rfl⟩, rfl, rfl⟩
  obtain ⟨hran, hcauses, hformer⟩ := hstate
  rw [(noCauses_iff _).mpr hc]
  refine leads_formerRun_idle (k := 5) hran.1 (by rw [hformer]; exact hs) hju fun n hn => ⟨?_, cascade_startUp hran n⟩
  exact boundaryTaken_lowered hu (leads_boundary hran.1 (hcauses.trans hc) (by rw [hformer]; exact hs)
    (by rw [hformer]; exact hp) n hn)

end

/-! ### The hood's switches away from LOWERING's end -/

theorem settle_hoodUp_hood {s : State} {level : Bool} (hd : s.sup.hoodDown = false) (hl : s.tracker.hoodUp.level = level) :
    (settle (deriveHood s, [.hoodSeen])).sup.hood = if level then .up else .raising := by
  have hhood : (deriveHood s).sup.hood = if level then HoodState.up else .raising :=
    (deriveHood_sup s).1.trans (by rw [derivedHood, hd, hl]; rfl)
  obtain ⟨f, -, hf⟩ := flagJoints_eq (deriveHood s)
  have hnot : ¬((deriveHood s).sup.line = .lowering ∧ (deriveHood s).sup.hood = .down) := by
    rw [hhood]
    rintro ⟨-, h⟩
    cases level <;> cases h
  rw [settle_hoodSeen_quiet hnot, hf]
  exact hhood

theorem settle_hoodDown_elsewhere {s : State} {level : Bool} (hd : s.sup.hoodDown = true)
    (hv : s.tracker.hoodDown.level = level) (hl : level = false ∨ s.sup.line ≠ .lowering) (hj : JointFlags s) :
    settle (deriveHood s, [.hoodSeen]) =
      if s.sup.hood = (if level = true then HoodState.down else .lowering) then s
      else { s with sup := { s.sup with
        hood := if level = true then .down else .lowering
        hoodTimer := if level = true then none else some (s.sup.set.hoodTimeout * 1000)
        vRef := if s.sup.hood = .down then 0 else s.sup.vRef
        speedOut := if s.sup.hood = .down then 0 else s.sup.speedOut } } := by
  have hnot : ¬((deriveHood s).sup.line = .lowering ∧ (deriveHood s).sup.hood = .down) := by
    rw [(deriveHood_sup s).1, (deriveHood_sup s).2, derivedHood, hd, hv]
    rintro ⟨hline, hhood⟩
    rcases hl with rfl | hl
    · cases hhood
    · exact hl hline
  rw [settle_hoodSeen_quiet hnot, flagJoints_self (jointFlags_of_production (production_deriveHood s) hj),
    deriveHood_down hd hv]

end Sys2Proof.Machine

namespace Sys2Proof.Proofs

open Sys2Proof.Machine Sys2Proof.Safety

/-- Settles O47: the chatter filter, and what each switch's edge does. -/
theorem switchFilters : Obligations.SwitchFilters := by
  refine ⟨fun sw high s => ⟨exec_switch_same, exec_switch_timed, fun h ht => ⟨_, exec_switch_untimed h ht,
    (takeLevel_frame sw _).1, ?untimed, ?expiry⟩⟩, fun sw s htimer => ⟨fun h => ?same, fun hedge => ?edge⟩⟩
  case untimed => exact (filterOf_takeLevel sw _).trans (congrArg (fun b => (⟨b, none⟩ : Machine.Filter)) reading_moved)
  case expiry =>
    rw [exec_filterExpiry (by rw [filterOf_onFilter]; nofun), takeLevel_timer]
  case same => exact (exec_filterExpiry htimer).trans (congrArg Host.Outcome.next (takeLevel_same (not_not.mp h)))
  case edge =>
    have hunnoted := unnoted_edgeEffect (sw := sw) (level := reading s sw) (s := levelTaken sw s)
    refine ⟨_, exec_filterExpiry htimer, filterOf_takeLevel sw s, fun sw' h => filterOf_takeLevel_ne h s,
      (takeLevel_frame sw s).1, (takeLevel_frame sw s).2, ?_⟩
    rw [takeLevel_edge hedge]
    cases sw
    case bladeHome =>
      have heffect : reading s .bladeHome = true → edgeEffect .bladeHome (reading s .bladeHome) (levelTaken .bladeHome s) =
          ((levelTaken .bladeHome s).onFormer fun f => { f with retractAfterTrip := false }, [.former]) := fun h => if_pos h
      refine ⟨fun _ hlev => ?_, nofun, nofun, nofun, hunnoted, fun i st _ hlev hs hi hst hj => ?_, ?_, nofun, nofun⟩
      · rw [heffect hlev]
        exact settle_bladeHome_retract hlev
      · rw [heffect hlev]
        exact strokeEnded_retract (s := { levelTaken .bladeHome s with
          former := { s.former with retractAfterTrip := false } }) hs hlev hi hst hj
      · rintro (⟨h, -⟩ | ⟨h, -⟩) <;> cases h
    case hoodUp =>
      refine ⟨nofun, fun _ hd => ?_, nofun, nofun, hunnoted, nofun, ?_, nofun, nofun⟩
      · have heffect : edgeEffect .hoodUp (reading s .hoodUp) (levelTaken .hoodUp s) =
            (deriveHood (levelTaken .hoodUp s), [.hoodSeen]) :=
          if_neg (by rw [show (levelTaken .hoodUp s).sup.hoodDown = false from hd]; decide)
        rw [heffect]
        exact settle_hoodUp_hood hd rfl
      · rintro (⟨-, hd⟩ | ⟨h, -⟩) hj
        · have heffect : edgeEffect .hoodUp (reading s .hoodUp) (levelTaken .hoodUp s) = quiet (levelTaken .hoodUp s) :=
            if_pos hd
          rw [heffect, quiet, settle_quiet]
          exact flagJoints_self (s := levelTaken .hoodUp s) hj
        · cases h
    case hoodDown =>
      have heffect : s.sup.hoodDown = true → edgeEffect .hoodDown (reading s .hoodDown) (levelTaken .hoodDown s) =
          (deriveHood (levelTaken .hoodDown s), [.hoodSeen]) := fun h => if_pos h
      refine ⟨nofun, nofun, nofun, nofun, hunnoted, nofun, ?_, fun _ hd hlev hj => ?_, fun _ hd hlev hl => ?_⟩
      · rintro (⟨h, -⟩ | ⟨-, hd⟩) hj
        · cases h
        · have hquiet : edgeEffect .hoodDown (reading s .hoodDown) (levelTaken .hoodDown s) =
              quiet (levelTaken .hoodDown s) :=
            if_neg (by rw [show (levelTaken .hoodDown s).sup.hoodDown = false from hd]; decide)
          rw [hquiet, quiet, settle_quiet]
          exact flagJoints_self (s := levelTaken .hoodDown s) hj
      · rw [heffect hd]
        exact settle_hoodDown_elsewhere (s := levelTaken .hoodDown s) hd rfl hlev hj
      · rw [heffect hd]
        refine ⟨fun hc hb => settle_lowered_holds (s := levelTaken .hoodDown s) hd hlev hl hc hb,
          fun hc hi hh hb => settle_lowered_works (s := levelTaken .hoodDown s) hd hlev hl hc hi hh hb,
          fun r hc hs hh hr hb hrest hlate =>
            settle_lowered_resumes (s := levelTaken .hoodDown s) hd hlev hl hc hs hh hr hb hrest hlate,
          fun i st hc hs hh hr hi hst hrun hj hdue => ?_,
          fun hc hs hp => settle_lowered_boundary (s := levelTaken .hoodDown s) hd hlev hl hc hs hp⟩
        obtain ⟨hruns, hformer, htracker, hlate⟩ :=
          settle_lowered_starts (s := levelTaken .hoodDown s) hd hlev hl hc hs hh hr hi hst hrun hj hdue
        exact ⟨hruns, hformer, htracker, unnoted_of_recordsOf hlate⟩
    case jointDetector =>
      have heffect : reading s .jointDetector = true →
          edgeEffect .jointDetector (reading s .jointDetector) (levelTaken .jointDetector s) =
            (capture (levelTaken .jointDetector s), []) := fun h => if_pos h
      refine ⟨nofun, nofun, fun _ hlev => ?_, fun _ hlev x hs hx hw => ?_, hunnoted, nofun, ?_, nofun, nofun⟩
      · obtain ⟨f, -, hf⟩ := flagJoints_eq (capture (levelTaken .jointDetector s))
        rw [heffect hlev, settle_quiet, hf]
        exact capture_joints (levelTaken .jointDetector s)
      · rw [heffect hlev]
        have hseen := settle_capture_seen (s := levelTaken .jointDetector s) hs hx hw
        rw [spliceDoneDetail_eq] at hseen
        exact hseen
      · rintro (⟨h, -⟩ | ⟨h, -⟩) <;> cases h

end Sys2Proof.Proofs
end

section
/-! SUPPORT. The panels of the part, balanced: what R98 counts is changed by a report that leaves the table, a panel
begun and a report taken, and by nothing else. -/

namespace Sys2Proof.Machine

open Sys2Proof.Safety

/-- Panels begun less those in the table, in the report queue and taken (R98). -/
def balance (s : State) : BitVec 32 :=
  s.tracker.begun - (BitVec.ofNat 32 (s.tracker.table.length + s.tracker.reports.length) + s.tracker.taken)

theorem accounting_iff (s : State) : Accounting s ↔ balance s = 0 := sub_eq_zero.symm

theorem accounting_of_balance {s t : State} (h : balance t = balance s) (hs : Accounting s) : Accounting t := by
  rw [accounting_iff] at hs ⊢
  exact h.trans hs

theorem balance_of_production {s t : State} (h : production t = production s) : balance t = balance s := by
  rw [balance, balance, production_tracker h]

section
variable (s : State)

/-! ### Changes of one block -/

@[simp] theorem balance_onRouter (f : Three RouterPort → Three RouterPort) : balance (s.onRouter f) = balance s := rfl
@[simp] theorem balance_raise (k : EventKind) (d : List Byte) : balance (raise k d s) = balance s := rfl
@[simp] theorem balance_onFormer (f : Former → Former) : balance (s.onFormer f) = balance s := rfl
@[simp] theorem balance_onQueue (f : RunQueue → RunQueue) : balance (s.onQueue f) = balance s := rfl
@[simp] theorem balance_onSup (f : Supervisor → Supervisor) : balance (s.onSup f) = balance s := rfl
@[simp] theorem balance_onDose (f : Dose → Dose) : balance (s.onDose f) = balance s := rfl
@[simp] theorem balance_onCut (f : Cut → Cut) : balance (s.onCut f) = balance s := rfl

/-- A change of the tracker that leaves the counts and the numbers of records and reports. -/
theorem balance_onTracker {f : Tracker → Tracker} {s : State} (hb : (f s.tracker).begun = s.tracker.begun)
    (ht : (f s.tracker).table.length = s.tracker.table.length)
    (hr : (f s.tracker).reports.length = s.tracker.reports.length) (hk : (f s.tracker).taken = s.tracker.taken) :
    balance (s.onTracker f) = balance s := by
  simp only [balance, State.onTracker_tracker, hb, ht, hr, hk]

@[simp] theorem balance_onPanel (n : BitVec 16) (f : PanelRec → PanelRec) : balance (onPanel n f s) = balance s :=
  balance_onTracker rfl (List.length_map _) rfl rfl

@[simp] theorem balance_onFormingPanel (f : PanelRec → PanelRec) : balance (onFormingPanel f s) = balance s := by
  unfold onFormingPanel; split
  · rfl
  · exact balance_onPanel s _ f

@[simp] theorem balance_flagJoints : balance (flagJoints s) = balance s := by
  unfold flagJoints; split
  · exact balance_onFormingPanel s _
  · rfl

/-! ### Queue and line -/

@[simp] theorem balance_activate : balance (activate s) = balance s := by rw [balance, balance, activate_tracker]

@[simp] theorem balance_retire (k : Nat) : balance (retire k s) = balance s := by unfold retire; split <;> rfl

@[simp] theorem balance_countPanel : balance (countPanel s) = balance s := by
  unfold countPanel; dsimp only; split
  · rfl
  · split
    · exact balance_retire _ 0
    · split
      · exact balance_retire _ 1
      · rfl

@[simp] theorem balance_countAborted : balance (countAborted s) = balance s := by
  unfold countAborted; split
  · rfl
  · split
    · exact balance_retire s 1
    · rfl

@[simp] theorem balance_withdrawCauses : balance (withdrawCauses s) = balance s :=
  balance_of_production (production_withdrawCauses s)

@[simp] theorem balance_setCauses (c : HoldCauses) : balance (setCauses c s) = balance s :=
  balance_of_production (production_setCauses s c)

@[simp] theorem balance_leaveBoundaryHold : balance (leaveBoundaryHold s) = balance s := by
  unfold leaveBoundaryHold; split <;> simp

@[simp] theorem balance_enterLine (l : LineState) : balance (enterLine l s).1 = balance s := by
  by_cases h : l = .stopped
  · subst h
    simp only [enterLine, balance_leaveBoundaryHold]
    exact balance_of_production (by simp)
  · exact balance_of_production (production_enterLine s h)

/-! ### Marks, joints, panels and reports -/

@[simp] theorem balance_writeMark (k : MarkKind) (p : Option (BitVec 16)) : balance (writeMark k p s) = balance s := rfl

@[simp] theorem balance_markJoint : balance (markJoint s) = balance s := by unfold markJoint; dsimp only; split <;> rfl

@[simp] theorem balance_markArrivals (g : RollGeometry) (p : Pos) (es : List Joint) :
    balance (markArrivals g p es s) = balance s := by
  induction es generalizing s with
  | nil => rfl
  | cons e es ih =>
    refine (ih _).trans ?_
    split
    · exact balance_markJoint s
    · rfl

@[simp] theorem balance_arriveJoints : balance (arriveJoints s) = balance s :=
  (balance_onTracker rfl rfl rfl rfl).trans (balance_markArrivals s _ _ _)

@[simp] theorem balance_passJoints : balance (passJoints s).1 = balance s :=
  (balance_onTracker rfl rfl rfl rfl).trans (balance_flagJoints s)

@[simp] theorem balance_addJoint (x : Pos) (u : Bool) : balance (addJoint x u s) = balance s := by
  unfold addJoint
  refine balance_onTracker ?_ ?_ ?_ ?_ <;> split <;> rfl

@[simp] theorem balance_closePanel (n : BitVec 16) (a : Bool) : balance (closePanel n a s) = balance s := by
  rw [closePanel, balance_of_production (production_cutSeesEnd _), balance_onPanel, balance_writeMark]

/-- A panel begun is one more begun and one more in the table (R93, R98). -/
@[simp] theorem balance_beginPanel (o : Order) : balance (beginPanel o s) = balance s := by
  have hone : BitVec.ofNat 32 1 = 1 := rfl
  simp only [balance, beginPanel, State.onTracker_tracker, List.length_append, List.length_singleton, BitVec.ofNat_add,
    hone]
  ring

/-- A report in the queue is one record fewer in the table (R95, R98). -/
theorem balance_queueReport {r : PanelRec} {s : State} (hr : r ∈ s.tracker.table) :
    balance (queueReport r s) = balance s := by
  have hlen : (s.tracker.table.eraseP fun q => q.number == r.number).length + 1 = s.tracker.table.length := by
    have hpos := List.length_pos_of_mem hr
    rw [List.length_eraseP_of_mem hr (by simp)]
    omega
  have he : balance (s.onTracker fun t =>
      { t with table := t.table.eraseP (fun q => q.number == r.number), reports := t.reports ++ [reportOf r] }) =
      balance s := by
    simp only [balance, State.onTracker_tracker, List.length_append, List.length_singleton, ← hlen]
    rw [Nat.add_right_comm, ← Nat.add_assoc]
  unfold queueReport
  dsimp only
  split
  · exact he
  · exact he

@[simp] theorem balance_panelAtKnife (n : BitVec 16) : balance (panelAtKnife n s).1 = balance s := by
  unfold panelAtKnife; split
  · rfl
  · next r hr =>
    split
    · exact balance_queueReport (List.mem_of_find?_eq_some hr)
    · exact balance_onPanel s n _

@[simp] theorem balance_passKnife : balance (passKnife s).1 = balance s := by
  unfold passKnife; split
  · rfl
  · split
    · dsimp only; split
      · exact balance_panelAtKnife _ _
      · rfl
    · rfl

/-- The waiting report that takes a freed place (R97). -/
@[simp] theorem balance_makeWaitingReport : balance (makeWaitingReport s).1 = balance s := by
  unfold makeWaitingReport; split
  · rfl
  · next w hw =>
    split
    · exact balance_queueReport (List.mem_of_find?_eq_some hw)
    · rfl

/-! ### The former -/

@[simp] theorem balance_beginLength (l : Nat) : balance (beginLength l s) = balance s := rfl

@[simp] theorem balance_enterStep (i : Nat) : balance (enterStep i s) = balance s := by
  unfold enterStep; split
  · rfl
  · split <;> rfl

@[simp] theorem balance_recordLate : balance (recordLate s) = balance s := by unfold recordLate; split <;> simp

@[simp] theorem balance_enterFeed (st : StepRec) : balance (enterFeed st s) = balance s := by
  unfold enterFeed; dsimp only; split <;> simp

@[simp] theorem balance_startStroke : balance (startStroke s).1 = balance s := by
  unfold startStroke; split
  · rfl
  · simp

@[simp] theorem balance_afterStroke : balance (afterStroke s) = balance s := by
  unfold afterStroke; split
  · split
    · rfl
    · split
      · rfl
      · split <;> rfl
  · rfl

@[simp] theorem balance_endRetract : balance (endRetract s).1 = balance s := by
  unfold endRetract; split
  · rfl
  · dsimp only; split
    · simp
    · split <;> simp

@[simp] theorem balance_startPanel : balance (startPanel s) = balance s := by
  unfold startPanel; dsimp only; split
  · simp
  · rw [balance_beginLength, balance_onFormer, balance_of_production (production_cutSeesStart _)]
    simp

@[simp] theorem balance_boundaryTest : balance (boundaryTest s).1 = balance s := by
  have hold : ∀ h u, balance (holdFor h u) = balance u := fun h u => balance_setCauses _ _
  have rest : balance (restIdle s) = balance s := balance_withdrawCauses _
  unfold boundaryTest; split
  · rfl
  · split
    · refine (hold _ _).trans ?_
      split <;> rfl
    · split
      · split
        · exact hold _ s
        · split
          · exact balance_withdrawCauses _
          · exact rest
      · split
        · exact hold _ s
        · split
          · exact balance_startPanel s
          · exact rest

@[simp] theorem balance_endPanel : balance (endPanel s).1 = balance s := by
  unfold endPanel; split
  · rfl
  · simp

@[simp] theorem balance_endFollow : balance (endFollow s).1 = balance s := by
  unfold endFollow; split
  case h_1 => simp
  case h_2 =>
    split
    · split
      · rfl
      · simp
    · rfl
  case h_3 => simp
  all_goals rfl

@[simp] theorem balance_formerTest : balance (formerTest s).1 = balance s := by
  have late : balance (noteLate s) = balance s := by unfold noteLate; split <;> rfl
  unfold formerTest; split
  case h_1 | h_2 | h_3 => split <;> simp [quiet]
  case h_4 => split <;> simp [quiet]
  case h_5 =>
    dsimp only [quiet]; split
    · exact late
    · exact late
  case h_6 | h_7 => exact late
  case h_8 =>
    split
    · simp
    · exact late
  case h_9 => dsimp only [quiet, keepReached]; split <;> rfl
  all_goals rfl

@[simp] theorem balance_formerRun : balance (formerRun s).1 = balance s := by
  unfold formerRun; split
  · rfl
  · split
    case h_2 =>
      split
      · unfold resumeWork; dsimp only; split <;> simp
      · rfl
    all_goals rfl

@[simp] theorem balance_formerPause : balance (formerPause s).1 = balance s := by
  unfold formerPause; split
  case h_6 => exact balance_leaveBoundaryHold s
  all_goals rfl

@[simp] theorem balance_formerAbort : balance (formerAbort s).1 = balance s := by
  have hp : balance (abortPanel s) = balance s := by unfold abortPanel; split <;> simp
  have hb : balance (abortBridge (abortPanel s)) = balance (abortPanel s) := by unfold abortBridge; split <;> rfl
  simp [formerAbort, quiet, hb, hp]

/-! ### Signals and cascades -/

theorem balance_handle (g : Sig) : balance (handle g s).1 = balance s := by
  by_cases hg : apartSignal g = true
  · exact balance_of_production (production_handle s hg)
  cases g with
  | stopCheck =>
    unfold handle stopCheck; dsimp only; split
    · exact balance_enterLine s _
    · rfl
  | bridge =>
    unfold handle bridgeTest; dsimp only; split <;> rfl
  | former => exact balance_formerTest s
  | boundary => exact balance_boundaryTest s
  | formerRun => exact balance_formerRun s
  | formerPause => exact balance_formerPause s
  | abort => exact balance_formerAbort s
  | joints => exact balance_arriveJoints s
  | jointsPast => exact balance_passJoints s
  | track x => exact balance_addJoint s x true
  | knife => exact balance_passKnife s
  | _ => exact absurd rfl hg

end

/-- No cascade unsettles the account. -/
theorem balance_settle (w : Work) : balance (settle w) = balance w.1 :=
  settle_same balance balance_flagJoints (fun g s => balance_handle s g) w

end Sys2Proof.Machine
end

section
/-! SUPPORT. The tracker's two laws, R98 and R89, through every command: most leave former and tracker alone, the others
end in a cascade, which balances the account and sets the flags. -/

namespace Sys2Proof.Machine

open Sys2Proof.Safety

/-- Every cascade ends with the joint flags set, whatever it began from (R89). -/
theorem jointFlags_settle (w : Work) : JointFlags (settle w) :=
  settle_induct (P := fun _ u => JointFlags u) (fun _ _ h => h) (fun _ _ _ _ => jointFlags_flagJoints _) w
    (jointFlags_flagJoints _)

/-- From `s` to `t` the account of the panels and the joint flags are kept. -/
structure WebLawsKept (s t : State) : Prop where
  accounting : Accounting s → Accounting t
  flags : JointFlags s → JointFlags t

namespace WebLawsKept

variable {s t u : State}

theorem refl (s : State) : WebLawsKept s s := ⟨id, id⟩

theorem trans (h : WebLawsKept s t) (h' : WebLawsKept t u) : WebLawsKept s u :=
  ⟨h'.accounting ∘ h.accounting, h'.flags ∘ h.flags⟩

/-- What leaves former and tracker alone. -/
theorem of_production (h : production t = production s) : WebLawsKept s t :=
  ⟨accounting_of_balance (balance_of_production h),
    fun hs => jointFlags_searchState hs (production_former h) (production_tracker h)⟩

/-- A start that differs from `s` away from former and tracker. -/
theorem from_production (h' : WebLawsKept u t) (h : production u = production s) : WebLawsKept s t :=
  (of_production h).trans h'

/-- A cascade after an effect that balances. -/
theorem of_settle {w : Work} (h : balance w.1 = balance s) : WebLawsKept s (settle w) :=
  ⟨accounting_of_balance ((balance_settle w).trans h), fun _ => jointFlags_settle w⟩

theorem of_settle_production {w : Work} (h : production w.1 = production s) : WebLawsKept s (settle w) :=
  of_settle (balance_of_production h)

theorem ite {c : Prop} [Decidable c] {a b : State} (ha : WebLawsKept s a) (hb : WebLawsKept s b) :
    WebLawsKept s (if c then a else b) := by
  split
  · exact ha
  · exact hb

/-- Nothing stands in the tables any more, and nothing has been begun or taken. -/
theorem of_empty (hb : t.tracker.begun = 0) (ht : t.tracker.table = []) (hr : t.tracker.reports = [])
    (hk : t.tracker.taken = 0) : WebLawsKept s t := by
  refine ⟨fun _ => ?_, fun _ _ e _ _ n _ r hmem => ?_⟩
  · rw [Accounting, hb, ht, hr, hk]; rfl
  · rw [ht] at hmem; cases hmem

/-- Around a block's work, serving a request touches a port only. -/
theorem of_serve {kind : Byte} {auth : Option Port} {lengthOk : Nat → Bool}
    {block : Port → List Byte → State → State × Answer} (hb : ∀ p pl u, WebLawsKept u (block p pl u).1) (f : Frame) :
    WebLawsKept s (serve kind auth lengthOk block f s) := by
  unfold serve
  dsimp only
  split
  · exact of_production rfl
  · next payload _ =>
    have hblock := hb f.port payload (countFrame f.port (shiftIn f.port (f.bytes kind) s))
    split
    · exact of_production rfl
    · split
      · exact ⟨hblock.accounting, hblock.flags⟩
      · exact of_production rfl

end WebLawsKept

section
variable (p : Port) (pl : List Byte) (s : State)

/-! ### Requests -/

theorem webLaws_lineStart : WebLawsKept s (lineStart p pl s).1 := by
  unfold lineStart; split
  · exact .refl s
  · split
    · refine .of_settle ((balance_enterLine _ _).trans ?_)
      unfold recipeForRun; split <;> rfl
    · exact .refl s

theorem webLaws_lineStop : WebLawsKept s (lineStop p pl s).1 := by
  have hs : WebLawsKept s (settle (stopNow s)) := .of_settle_production (production_stopNow s)
  unfold lineStop; split
  · exact .refl s
  · unfold stopLine; split
    case h_4 | h_5 => exact hs
    case h_6 | h_7 =>
      split
      · exact .of_production rfl
      · exact hs
    all_goals exact .refl s

theorem webLaws_lineReset : WebLawsKept s (lineReset p pl s).1 := by
  unfold lineReset; split
  · have ht : (resetZones (lineResetState s)).tracker = resetTracker s.tracker :=
      production_tracker production_resetZones
    refine .of_empty ?_ ?_ ?_ ?_ <;> simp only [okWith, raise, State.onRouter_tracker, ht] <;> rfl
  · exact .refl s

theorem webLaws_zoneSetRequest : WebLawsKept s (zoneSetRequest p pl s).1 := by
  unfold zoneSetRequest; split
  · exact .refl s
  · exact .of_settle_production (production_applyZoneSet pl)

theorem balance_clearLine : balance (clearLine s).1 = balance s := by
  unfold clearLine; split
  · simp only [followedBy, balance_enterLine]; rfl
  · rfl

theorem webLaws_faultClear : WebLawsKept s (faultClear p pl s).1 := by
  have hz : balance (zonesInOrder.foldl clearZone s) = balance s :=
    balance_of_production (production_foldl s (fun z _ => production_clearZone z) _)
  unfold faultClear; split
  · exact .refl s
  · refine .of_settle ((balance_clearLine _).trans hz)

theorem webLaws_formerSet : WebLawsKept s (formerSet p pl s).1 := by
  unfold formerSet; dsimp only; split
  · exact .refl s
  · split
    · exact .refl s
    · split
      · exact .refl s
      · exact ⟨id, id⟩

/-- A switch's filter is in the tracker, and neither law reads it. -/
theorem webLaws_onFilter (sw : Switch) (f : Filter → Filter) : WebLawsKept s (onFilter sw f s) := by
  cases sw <;> exact ⟨id, id⟩

theorem balance_onFilter (sw : Switch) (f : Filter → Filter) : balance (onFilter sw f s) = balance s := by
  cases sw <;> rfl

theorem webLaws_inputSet : WebLawsKept s (inputSet p pl s).1 := by
  unfold inputSet; dsimp only; split
  · exact .refl s
  · split
    · exact .refl s
    · refine .of_settle ((balance_of_production (production_giveEstop _)).trans ?_)
      simp only [List.foldl_cons, List.foldl_nil, refilterSwitch, balance_onFilter]
      rfl

theorem webLaws_orderQueue : WebLawsKept s (orderQueue p pl s).1 := by
  unfold orderQueue; split
  · exact .refl s
  · split
    · exact .refl s
    · split
      · exact .refl s
      · split
        · exact .refl s
        · exact .of_settle rfl

theorem balance_removeOrder (o : Order) : balance (removeOrder o s) = balance s :=
  (balance_of_production (production_queuedFell _)).trans rfl

theorem webLaws_orderCancel : WebLawsKept s (orderCancel p pl s).1 := by
  unfold orderCancel; split
  · exact .refl s
  · split
    · exact .refl s
    · split
      · split
        · exact .refl s
        · split
          · exact ⟨id, id⟩
          · exact .of_settle (balance_retire s 1)
      · exact .of_settle (balance_removeOrder s _)

/-- A report taken is one fewer in the queue and one more taken (R97, R98). -/
theorem webLaws_reportTake : WebLawsKept s (reportTake p pl s).1 := by
  unfold reportTake; split
  · exact .refl s
  · next r rest hr =>
    refine .of_settle ((balance_makeWaitingReport _).trans ?_)
    simp only [balance, State.onTracker_tracker, hr, List.length_cons, ← Nat.add_assoc, BitVec.ofNat_add]
    have hone : BitVec.ofNat 32 1 = 1 := rfl
    rw [hone]
    ring

theorem webLaws_rollStatus : WebLawsKept s (rollStatus p pl s).1 := by
  unfold rollStatus; split
  · exact .refl s
  · split
    · exact .refl s
    · exact .of_settle_production (by simp)

theorem webLaws_spliceArm : WebLawsKept s (spliceArm p pl s).1 := by
  unfold spliceArm; split
  · exact .refl s
  · split
    · exact .refl s
    · exact .of_settle rfl

theorem webLaws_spliceCancel : WebLawsKept s (spliceCancel p pl s).1 := by
  unfold spliceCancel; split
  case h_1 | h_2 | h_3 => exact .of_settle_production (production_withdrawSplice s none)
  case h_4 => exact .refl s
  case h_5 => split <;> exact .refl s

/-- A cut flags its panel CUT_THROUGH, which neither law reads. -/
theorem webLaws_flagCutThrough (n : Option (BitVec 16)) : WebLawsKept s (flagCutThrough n s) := by
  unfold flagCutThrough; split
  · exact .refl s
  · refine ⟨accounting_of_balance (balance_onPanel s _ _), fun hj => jointFlags_mapped hj fun r => ?_⟩
    split <;> exact ⟨rfl, rfl, rfl⟩

theorem webLaws_cutRequest : WebLawsKept s (cutRequest p pl s).1 := by
  unfold cutRequest; split
  · exact .refl s
  · split
    · unfold cutNextEnd; split
      · exact .refl s
      · exact .of_production (production_chooseTarget _)
    · unfold cutForce; split
      · exact .refl s
      · exact (webLaws_flagCutThrough s _).trans (.of_production rfl)

end

/-- The requests that load the pattern store touch neither former nor tracker. -/
theorem webLaws_patterns (p : Port) (pl : List Byte) (s : State) :
    WebLawsKept s (patternBegin p pl s).1 ∧ WebLawsKept s (patternSteps p pl s).1 ∧
      WebLawsKept s (patternEnd p pl s).1 ∧ WebLawsKept s (patternDelete p pl s).1 := by
  refine ⟨?_, ?_, ?_, ?_⟩
  · unfold patternBegin; dsimp only
    split
    · exact .refl s
    · split
      · exact .refl s
      · split <;> exact ⟨id, id⟩
  · unfold patternSteps; split
    · exact .refl s
    · dsimp only; split <;> exact ⟨id, id⟩
  · unfold patternEnd; split
    · exact .refl s
    · dsimp only; split <;> exact ⟨id, id⟩
  · unfold patternDelete; dsimp only; split
    · exact .refl s
    · split
      · exact .refl s
      · split <;> exact ⟨id, id⟩
      · exact ⟨id, id⟩

/-! ### Counts and switches -/

theorem balance_shiftCells (s : State) : balance (shiftCells s) = balance s := by
  have hj : ∀ c, balance (judgeCell c s) = balance s := by
    intro c; unfold judgeCell; split
    · unfold offerCell; split
      · rfl
      · exact balance_onPanel s _ _
    · rfl
  unfold shiftCells; split
  · exact hj _
  · rfl

theorem balance_edgeEffect (sw : Switch) (b : Bool) (s : State) : balance (edgeEffect sw b s).1 = balance s := by
  cases sw <;> dsimp only [edgeEffect] <;> split
  case hoodUp.isFalse | hoodDown.isTrue => exact balance_of_production (production_deriveHood s)
  case jointDetector.isTrue =>
    exact (balance_addJoint _ _ _).trans (balance_of_production (production_offerCapture s _))
  all_goals rfl

theorem webLaws_takeLevel (sw : Switch) (s : State) : WebLawsKept s (takeLevel sw s) := by
  unfold takeLevel; dsimp only; split
  · exact webLaws_onFilter s sw _
  · exact .of_settle ((balance_edgeEffect sw _ _).trans (balance_onFilter s sw _))

theorem webLaws_portLost (p : Port) (s : State) : WebLawsKept s (settle (portLost p s)) := by
  cases p
  · exact .of_settle_production (production_stopNow s)
  · exact .of_settle rfl
  · exact .of_settle_production (production_withdrawCut s)

/-! ### Commands and steps -/

theorem webLaws_exec {c : Instr} {s t : State} (h : exec c s = .next t) : WebLawsKept s t := by
  have same : ∀ {block : Port → List Byte → State → State × Answer},
      (∀ p pl {u : State}, production (block p pl u).1 = production u) → ∀ p pl u, WebLawsKept u (block p pl u).1 :=
    fun hb p pl _ => .of_production (hb p pl)
  cases c
  case incompleteFrame p bytes =>
    simp only [exec, execIncompleteFrame] at h
    split at h <;> cases h
    exact .of_production rfl
  case unknownKindFrame kind f =>
    simp only [exec, execUnknownKindFrame] at h
    split at h <;> cases h
    exact .ite (.of_production rfl) (.of_production rfl)
  all_goals obtain rfl := Host.Outcome.next.inj h
  case deviceReset => exact .of_empty rfl rfl rfl rfl
  case emptyTransaction p => exact .of_production rfl
  case nop f => exact .of_serve (fun _ _ u => .refl u) f
  case lineView f | zoneView f | formerView f | queueView f | panelView f | mapView f | spliceView f | portView f =>
    exact .of_serve (same production_statusRead) f
  case eventTake f => exact .of_serve (same production_eventTake) f
  case routeSet f => exact .of_serve (same production_routeSet) f
  case floorSet f => exact .of_serve (same production_floorSet) f
  case presenceSet f => exact .of_serve (same production_presenceSet) f
  case lineStart f => exact .of_serve webLaws_lineStart f
  case lineStopImmediate f | lineStopEndOfPanel f => exact .of_serve webLaws_lineStop f
  case lineReset f => exact .of_serve webLaws_lineReset f
  case speedSet f => exact .of_serve (block := speedSet) (fun _ _ _ => .of_production rfl) f
  case recipeSet f => exact .of_serve (same production_recipeSet) f
  case zoneSet f | zoneDisable f | zoneArm f | zoneEnable f => exact .of_serve webLaws_zoneSetRequest f
  case monitorSetZone f | monitorSetLine f => exact .of_serve (same production_monitorSet) f
  case faultClear f => exact .of_serve webLaws_faultClear f
  case formerSet f => exact .of_serve webLaws_formerSet f
  case tunnelSet f => exact .of_serve (same production_tunnelSet) f
  case motionSet f => exact .of_serve (same production_motionSet) f
  case inputSet f => exact .of_serve webLaws_inputSet f
  case rollGeometrySet f => exact .of_serve (same production_rollGeometrySet) f
  case patternBegin f => exact .of_serve (fun p pl u => (webLaws_patterns p pl u).1) f
  case patternSteps f => exact .of_serve (fun p pl u => (webLaws_patterns p pl u).2.1) f
  case patternEnd f => exact .of_serve (fun p pl u => (webLaws_patterns p pl u).2.2.1) f
  case patternDelete f => exact .of_serve (fun p pl u => (webLaws_patterns p pl u).2.2.2) f
  case orderQueue f => exact .of_serve webLaws_orderQueue f
  case orderCancel f => exact .of_serve webLaws_orderCancel f
  case reportTake f => exact .of_serve webLaws_reportTake f
  case queueLowSet f =>
    refine .of_serve (fun _ _ u => ?_) f
    unfold queueLowSet; split <;> exact ⟨id, id⟩
  case rollStatus f => exact .of_serve webLaws_rollStatus f
  case spliceArm f => exact .of_serve webLaws_spliceArm f
  case spliceForce f => exact .of_serve (same production_spliceForce) f
  case spliceCancel f => exact .of_serve webLaws_spliceCancel f
  case cutRequestNextEnd f | cutRequestForce f => exact .of_serve webLaws_cutRequest f
  case cutCancel f => exact .of_serve (same production_cutCancel) f
  case presenceExpiry p => exact .ite ((webLaws_portLost p _).from_production rfl) (.refl s)
  case infeedCount a b => exact .ite (.of_production rfl) (.of_settle rfl)
  case outfeedCount a b =>
    dsimp only
    split
    · exact .of_production rfl
    · refine .of_settle ((balance_of_production (production_cutCompare _)).trans ((balance_shiftCells _).trans rfl))
    · exact .of_settle rfl
  case switchPinChange sw high =>
    exact .ite (.refl s)
      (.ite ((webLaws_takeLevel sw _).from_production rfl) ((webLaws_onFilter _ sw _).from_production rfl))
  case filterExpiry sw => exact .ite (webLaws_takeLevel sw s) (.refl s)
  case estopChange high => exact .of_settle_production (production_giveEstop _)
  case feedTimeout | bladeJam | breakTimerExpiry | hoodTimerExpiry | tuckEnd | pressEnd =>
    exact .ite (.of_settle rfl) (.refl s)
  case hoodDelayExpiry => exact .ite (.of_settle_production (production_commandHood _ _)) (.refl s)
  case probeSample z n => exact .of_settle_production (by simp)
  case regulationPeriod z => exact .of_settle_production (by simp)
  case valveWindowStart | valveClose | splicePulseEnd => exact .of_production rfl
  case doseSample => exact .of_production (production_doseSample _)
  case speedUpdate =>
    exact (WebLawsKept.of_settle_production (production_speedUpdate s)).trans (.of_production (production_speedSteps _))
  case probeCheckTimer =>
    refine .ite (.of_production rfl) (.ite ?_ (.of_production rfl))
    exact .of_production (production_beginSearch _)
  case cutPulseEnd => exact .ite (.of_production rfl) (.refl s)

/-- Every step keeps both laws; a millisecond changes timers only. -/
theorem webLaws_step {s t : State} (h : step s = .next t) : WebLawsKept s t := by
  rcases step_cases h with ⟨-, rfl⟩ | ⟨-, c, -, hc⟩ | ⟨c, rest, -, hc⟩
  · exact ⟨id, id⟩
  · exact (webLaws_exec hc).from_production rfl
  · exact (webLaws_exec hc).from_production rfl

end Sys2Proof.Machine

namespace Sys2Proof.Proofs

open Sys2Proof.Machine Sys2Proof.Safety

/-- Settles O50: the account balances through every command, and a reset empties it. -/
theorem accountingKept : Obligations.AccountingKept := fun _ _ hs h => (webLaws_step h).accounting hs

/-- Settles O58: every cascade ends with the flags set, and what has no cascade leaves what the law reads. -/
theorem jointFlagsKept : Obligations.JointFlagsKept := fun _ _ hs h => (webLaws_step h).flags hs

end Sys2Proof.Proofs
end

section
/-! SUPPORT. What follows a report made in a freed place, the drain test and the news of space, reaches neither the
report queue nor REPORT_READY: only a mark at the knife makes another report (R95, R96). -/

namespace Sys2Proof.Machine

open Sys2Proof.Safety

/-- The signals that a drain test and the news of space may bring. -/
def spaceSignal : Sig → Bool
  | .drain | .space | .settled _ | .warm | .hoodSeen | .causes | .formerRun | .boundary | .former | .bridge | .search _
  | .approach | .deadline | .stopCheck | .reportEnd | .formerPause => true
  | .trip _ | .abort | .joints | .jointsPast | .track _ | .jointPassed _ | .knife | .fire | .window | .dueExpiry
  | .rollOut | .cancelSplice _ => false

/-- They bring no others. -/
theorem spaceSignal_of_raises {g g' : Sig} (h : spaceSignal g = true) (hr : raises g g' = true) :
    spaceSignal g' = true := by
  by_contra hn
  rw [Bool.not_eq_true] at hn
  cases g' <;> cases hn <;> cases g <;> cases h <;> cases hr

/-- The report queue and the records of REPORT_READY. -/
def reporting (s : State) : List PanelRec × Three (Option EventRecord) :=
  (s.tracker.reports, recordsOf .reportReady s)

section
variable (s : State)

/-! ### One block's change, and the events of the other kinds -/

@[simp] theorem reporting_onStore (f : Store → Store) : reporting (s.onStore f) = reporting s := rfl
@[simp] theorem reporting_onQueue (f : RunQueue → RunQueue) : reporting (s.onQueue f) = reporting s := rfl
@[simp] theorem reporting_onFormer (f : Former → Former) : reporting (s.onFormer f) = reporting s := rfl
@[simp] theorem reporting_onSup (f : Supervisor → Supervisor) : reporting (s.onSup f) = reporting s := rfl
@[simp] theorem reporting_onPlanner (f : Planner → Planner) : reporting (s.onPlanner f) = reporting s := rfl
@[simp] theorem reporting_onDose (f : Dose → Dose) : reporting (s.onDose f) = reporting s := rfl
@[simp] theorem reporting_withSettled (b : Bool) : reporting (s.withSettled b) = reporting s := rfl
@[simp] theorem reporting_onPanel (n : BitVec 16) (f : PanelRec → PanelRec) :
    reporting (onPanel n f s) = reporting s := rfl
@[simp] theorem reporting_onHead (f : Order → Order) : reporting (onHead f s) = reporting s := rfl
@[simp] theorem reporting_dropReference (i : Fin 16) : reporting (dropReference i s) = reporting s := rfl
@[simp] theorem reporting_writeMark (k : MarkKind) (p : Option (BitVec 16)) :
    reporting (writeMark k p s) = reporting s := rfl
@[simp] theorem reporting_beginPanel (o : Order) : reporting (beginPanel o s) = reporting s := rfl
@[simp] theorem reporting_beginLength (l : Nat) : reporting (beginLength l s) = reporting s := rfl
@[simp] theorem reporting_nameFreeze (n : Option Nat) : reporting (nameFreeze n s) = reporting s := rfl

@[simp] theorem reporting_raise {k : EventKind} (h : k ≠ .reportReady) (d : List Byte) :
    reporting (raise k d s) = reporting s := Prod.ext rfl (recordsOf_raise_ne h d s)

@[simp] theorem reporting_onFormingPanel (f : PanelRec → PanelRec) : reporting (onFormingPanel f s) = reporting s := by
  unfold onFormingPanel; split <;> rfl

@[simp] theorem reporting_flagJoints : reporting (flagJoints s) = reporting s := by
  unfold flagJoints; split <;> simp

/-! ### Queue, line and planner -/

@[simp] theorem reporting_activate : reporting (activate s) = reporting s := by
  unfold activate queuedFell; split
  · rfl
  · split <;> simp

@[simp] theorem reporting_countPanel : reporting (countPanel s) = reporting s := by
  have hretire : ∀ k u, reporting (retire k u) = reporting u := by
    intro k u; unfold retire; split <;> simp
  unfold countPanel; dsimp only; split
  · simp
  · split
    · simp [hretire]
    · split <;> simp [hretire]

@[simp] theorem reporting_cutSeesEnd : reporting (cutSeesEnd s) = reporting s := by
  unfold cutSeesEnd chooseTarget; split
  · split <;> rfl
  · rfl

@[simp] theorem reporting_cutSeesStart : reporting (cutSeesStart s) = reporting s := by
  unfold cutSeesStart; split
  · rfl
  · split
    · split
      · rfl
      · dsimp only; split <;> rfl
    · rfl

@[simp] theorem reporting_retarget : reporting (retarget s) = reporting s := by
  obtain ⟨zs, ms, h⟩ := retarget_eq (s := s)
  rw [h]; rfl

@[simp] theorem reporting_setCauses (c : HoldCauses) : reporting (setCauses c s) = reporting s := by
  unfold setCauses; split
  · rfl
  · dsimp only; split <;> simp

@[simp] theorem reporting_leaveBoundaryHold : reporting (leaveBoundaryHold s) = reporting s := by
  unfold leaveBoundaryHold withdrawCauses; split <;> simp

@[simp] theorem reporting_enterLine (l : LineState) : reporting (enterLine l s).1 = reporting s := by
  have hhood : ∀ b u, reporting (commandHood b u) = reporting u := by
    intro b u; unfold commandHood deriveHood; dsimp only; split <;> rfl
  have hline : ∀ l u, reporting (setLine l u) = reporting u := by
    intro l u; simp [setLine]
  cases l <;> simp only [enterLine, quiet, reporting_leaveBoundaryHold, hhood, hline, reporting_onSup]
  case holding => split <;> simp [hhood, hline]

@[simp] theorem reporting_search (b : Bool) : reporting (search b s).1 = reporting s := by
  unfold search schedule unschedule announce; dsimp only; split
  · simp
  · rfl
  · split
    · rfl
    · split <;> simp [quiet]
  · split <;> simp [quiet]
  all_goals rfl

/-! ### The former -/

@[simp] theorem reporting_enterStep (i : Nat) : reporting (enterStep i s) = reporting s := by
  unfold enterStep; split
  · rfl
  · split <;> rfl

@[simp] theorem reporting_startStroke : reporting (startStroke s).1 = reporting s := by
  have hlate : ∀ u, reporting (recordLate u) = reporting u := by
    intro u; unfold recordLate; split <;> simp
  have hfeed : ∀ st u, reporting (enterFeed st u) = reporting u := by
    intro st u; unfold enterFeed; dsimp only; split <;> simp
  unfold startStroke; split
  · rfl
  · simp [hlate, hfeed]

@[simp] theorem reporting_endRetract : reporting (endRetract s).1 = reporting s := by
  have hafter : ∀ u, reporting (afterStroke u) = reporting u := by
    intro u; unfold afterStroke; split
    · split
      · rfl
      · split
        · rfl
        · split <;> rfl
    · rfl
  unfold endRetract; split
  · rfl
  · dsimp only; split
    · simp [hafter]
    · split <;> simp [hafter]

@[simp] theorem reporting_boundaryTest : reporting (boundaryTest s).1 = reporting s := by
  have hpanel : ∀ u, reporting (startPanel u) = reporting u := by
    intro u; unfold startPanel withdrawCauses; dsimp only; split <;> simp
  unfold boundaryTest; split
  · rfl
  · split
    · simp only [holdFor, reporting_setCauses, reporting_onFormer]; split <;> simp
    · split
      · split
        · simp [holdFor]
        · split <;> simp [startBridge, restIdle, withdrawCauses]
      · split
        · simp [holdFor]
        · split <;> simp [hpanel, restIdle, withdrawCauses]

@[simp] theorem reporting_endFollow : reporting (endFollow s).1 = reporting s := by
  unfold endFollow; split
  · simp
  · split
    · split <;> simp
    · rfl
  · unfold endPanel closePanel; split <;> simp [quiet]
  all_goals rfl

@[simp] theorem reporting_formerTest : reporting (formerTest s).1 = reporting s := by
  have hlate : reporting (noteLate s) = reporting s := by unfold noteLate; split <;> rfl
  unfold formerTest keepReached; split
  case h_4 | h_8 => split <;> simp [quiet, hlate]
  case h_5 => dsimp only [quiet]; split <;> simp [endFeed, hlate]
  case h_6 | h_7 => exact hlate
  case h_9 => dsimp only [quiet]; split <;> rfl
  case h_10 | h_11 => rfl
  all_goals split <;> simp [quiet]

@[simp] theorem reporting_formerRun : reporting (formerRun s).1 = reporting s := by
  unfold formerRun; split
  · rfl
  · split
    case h_2 =>
      split
      · unfold resumeWork; dsimp only; split <;> simp
      · rfl
    all_goals rfl

end

/-! ### The signals and their cascades -/

theorem reporting_handle {g : Sig} (h : spaceSignal g = true) (s : State) : reporting (handle g s).1 = reporting s := by
  cases g <;> cases h <;> simp only [handle, reporting_formerTest, reporting_boundaryTest, reporting_formerRun,
    reporting_search]
  case hoodSeen => unfold hoodSeen; split <;> simp [quiet]
  case warm => unfold warmTest; split <;> simp [quiet]
  case causes =>
    unfold causesChanged; split
    · simp
    · split <;> simp [quiet]
  case stopCheck => unfold stopCheck; split <;> simp [quiet]
  case reportEnd => unfold reportEnd; split <;> simp [quiet]
  case settled force =>
    unfold reportSettled; dsimp only; split
    · rfl
    · dsimp only; split <;> simp
  case drain =>
    unfold drainTest; split
    · rfl
    · split <;> simp [quiet]
  case space => unfold spaceTest; split <;> rfl
  case formerPause => unfold formerPause; split <;> simp [quiet]
  case bridge => unfold bridgeTest; split <;> rfl
  case deadline =>
    unfold deadlineTest forceSplice announce; split
    · split <;> simp [quiet]
    · rfl
  case approach =>
    unfold approachTest; split
    · split <;> rfl
    · rfl

theorem reporting_settle {w : Work} (hw : ∀ g ∈ w.2, spaceSignal g = true) : reporting (settle w) = reporting w.1 :=
  settle_keeps_of (A := fun g => spaceSignal g = true) (P := fun u => reporting u = reporting w.1)
    (fun u h => (reporting_flagJoints u).trans h)
    (fun _ u hg h => ⟨(reporting_handle hg u).trans h, fun _ h' => spaceSignal_of_raises hg (raises_of_mem h')⟩)
    w rfl hw

end Sys2Proof.Machine
end

section
/-! SUPPORT. What REPORT_TAKE makes of the tracker: the oldest report taken, and the oldest waiting record's report in
its place (R95, R97, R98). -/

namespace Sys2Proof.Machine

open Sys2Proof.Safety

/-- The oldest report taken off the queue (R97). -/
def reportTaken (rest : List PanelRec) (s : State) : State :=
  { s with tracker := { s.tracker with reports := rest, taken := s.tracker.taken + 1 } }

/-- The final report of a record `w` in the queue, and the table without it (R95). -/
def reportMade (w : PanelRec) (table : List PanelRec) (s : State) : State :=
  { s with
    router := if s.tracker.reports = [] then s.router.map (notePort .reportReady [1]) else s.router
    tracker := { s.tracker with reports := s.tracker.reports ++ [finalReport w], table := table } }

theorem queueReport_eq {s : State} {before after : List PanelRec} {w : PanelRec}
    (ht : s.tracker.table = before ++ w :: after) (hb : ∀ q ∈ before, q.number ≠ w.number) :
    queueReport w s = reportMade w (before ++ after) s := by
  have herase : s.tracker.table.eraseP (fun q => q.number == w.number) = before ++ after := by
    rw [ht, List.eraseP_append_right _ (fun q hq => by simpa using hb q hq), List.eraseP_cons_of_pos (by simp)]
  simp only [queueReport, State.onTracker, herase, List.isEmpty_iff, reportMade]
  split
  · next he => rw [he]; rfl
  · rfl

theorem oldestWaiting_some {t : Tracker} {before after : List PanelRec} {w : PanelRec}
    (ht : t.table = before ++ w :: after) (hb : ∀ q ∈ before, q.state ≠ .waitingReport)
    (hw : w.state = .waitingReport) :
    oldestWaiting t = some w :=
  List.find?_eq_some_iff_append.mpr ⟨by simp [hw], before, after, ht, fun q hq => by simpa using hb q hq⟩

section
variable {s : State}

theorem makeWaitingReport_none (h : ∀ w ∈ s.tracker.table, w.state ≠ .waitingReport) :
    makeWaitingReport s = quiet s := by
  rw [makeWaitingReport, oldestWaiting_none h]

theorem makeWaitingReport_made {before after : List PanelRec} {w : PanelRec}
    (ht : s.tracker.table = before ++ w :: after) (hb : ∀ q ∈ before, q.state ≠ .waitingReport ∧ q.number ≠ w.number)
    (hw : w.state = .waitingReport) (hroom : s.tracker.reports.length < 16) :
    makeWaitingReport s = (reportMade w (before ++ after) s, [.drain, .space]) := by
  rw [makeWaitingReport, oldestWaiting_some ht (fun q hq => (hb q hq).1) hw]
  dsimp only
  rw [if_pos hroom, queueReport_eq ht fun q hq => (hb q hq).2]

variable {p : Port} {pl : List Byte} {r : PanelRec} {rest : List PanelRec}

theorem reportTake_empty (h : s.tracker.reports = []) : reportTake p pl s = (s, ⟨.empty, []⟩) := by
  rw [reportTake, h]

theorem reportTake_taken {w : Work} (h : s.tracker.reports = r :: rest)
    (hw : makeWaitingReport (reportTaken rest s) = w) :
    reportTake p pl s = okWith (recordLayout r ++ [BitVec.ofNat 8 w.1.tracker.reports.length]) (settle w) := by
  rw [reportTake, h, ← hw, ← recordBytes_eq, ← byte1_eq]
  rfl

/-- The drain test and the news of space find nothing to do. -/
theorem settle_space_rests (hh : heldAtBoundary s.former = false) (hp : s.dose.pendingRecipe = none)
    (hj : JointFlags s) : settle (s, [.drain, .space]) = s := by
  refine Settles.settle (k := 2) ?_ (by decide)
  rw [flagJoints_self hj]
  exact settles_drain_none hp hj (settles_space_away hh hj (Settles.done s))

/-- What follows a report made leaves the report queue and REPORT_READY to it. -/
theorem settle_reportMade (w : PanelRec) (table : List PanelRec) (u : State) :
    (settle (reportMade w table u, [.drain, .space])).tracker.reports = u.tracker.reports ++ [finalReport w] ∧
      recordsOf .reportReady (settle (reportMade w table u, [.drain, .space])) =
        recordsOf .reportReady (reportMade w table u) := by
  have h := reporting_settle (w := (reportMade w table u, [.drain, .space])) fun g hg => by
    rcases List.mem_pair.mp hg with rfl | rfl <;> rfl
  exact ⟨congrArg Prod.fst h, congrArg Prod.snd h⟩

end

end Sys2Proof.Machine

namespace Sys2Proof.Proofs

open Sys2Proof.Machine Sys2Proof.Safety

/-- Settles O24: the block by its report queue and the oldest waiting record; only the latter's report starts a cascade
of any length, which leaves the reports alone. -/
theorem reportTake : Obligations.ReportTake := by
  intro extra s f
  have hexec := exec_reportTake (f := f) s (Nat.zero_le _) rfl rfl
  refine ⟨fun h => ?empty, fun r rest hr hnone hj => ?taken, fun r rest before w after hr hroom ht hb hw => ?made⟩
  case empty =>
    exact hexec.trans (congrArg _ (answeredBy_same (a := ⟨.empty, []⟩) (reportTake_empty (s := received 0x26 f s) h)))
  case taken =>
    have hquiet : settle (quiet (reportTaken rest (received 0x26 f s))) = reportTaken rest (received 0x26 f s) :=
      (settle_quiet _).trans (flagJoints_self hj)
    have hblock := reportTake_taken (p := f.port) (pl := f.payload) (s := received 0x26 f s) hr
      (makeWaitingReport_none hnone)
    rw [hquiet] at hblock
    exact hexec.trans (congrArg _ (answeredBy_eq hblock rfl))
  case made =>
    intro response ready
    have hblock := reportTake_taken (p := f.port) (pl := f.payload) (s := received 0x26 f s) hr
      (makeWaitingReport_made (s := reportTaken rest (received 0x26 f s)) ht hb hw hroom)
    have hlen : (reportMade w (before ++ after) (reportTaken rest (received 0x26 f s))).tracker.reports.length =
        rest.length + 1 := by simp [reportMade, reportTaken]
    rw [hlen] at hblock
    obtain ⟨hreports, hrecords⟩ := settle_reportMade w (before ++ after) (reportTaken rest (received 0x26 f s))
    refine ⟨_, hexec.trans (congrArg _ (answeredBy_eq hblock (settle_ports _))), settle_taken _, rfl, hreports,
      fun p => ?_, fun hheld hp hj => ?_⟩
    · have hrecord := congrArg (·.get p) hrecords
      simp only [recordsOf_get] at hrecord
      exact hrecord
    · have hsub : ∀ q ∈ before ++ after, q ∈ s.tracker.table := fun q hq => by
        rw [ht]
        exact List.mem_append.mpr ((List.mem_append.mp hq).imp_right (List.mem_cons_of_mem w))
      rw [settle_space_rests (s := reportMade w (before ++ after) (reportTaken rest (received 0x26 f s))) hheld hp
        (jointFlags_sublist hj hsub)]
      rfl

end Sys2Proof.Proofs
end

section
/-! SUPPORT. The cut scheduler's requests: the target a NEXT_END takes and its cut point, the knife fired by a FORCE
with the panel it cuts through, and a cancel (R168 to R172). -/

namespace Sys2Proof.Machine

open Sys2Proof.Safety

/-! ### The target of a NEXT_END (R169) -/

theorem endMark_none {ms : List Mark} (h : ∀ x ∈ ms, x.kind ≠ .panelEnd) : endMark (fun _ => true) ms = none := by
  induction ms with
  | nil => rfl
  | cons x xs ih =>
    obtain ⟨hx, hxs⟩ := List.forall_mem_cons.mp h
    rw [endMark, if_neg fun hk => hx hk.1, ih hxs]

theorem endMark_some {before later : List Mark} {e : Mark} (hb : ∀ x ∈ before, x.kind ≠ .panelEnd)
    (he : e.kind = .panelEnd) : endMark (fun _ => true) (before ++ e :: later) = some (e, later) := by
  induction before with
  | nil => rw [List.nil_append, endMark, if_pos ⟨he, rfl⟩]
  | cons x xs ih =>
    obtain ⟨hx, hxs⟩ := List.forall_mem_cons.mp hb
    rw [List.cons_append, endMark, if_neg fun hk => hx hk.1, ih hxs]

theorem firstStart_none {ms : List Mark} (h : ∀ x ∈ ms, x.kind ≠ .panelStart) : firstStart ms = none :=
  List.find?_eq_none.mpr fun x hx => by simp [h x hx]

theorem firstStart_some {mids rest : List Mark} {p : Mark} (h : ∀ x ∈ mids, x.kind ≠ .panelStart)
    (hp : p.kind = .panelStart) : firstStart (mids ++ p :: rest) = some p :=
  List.find?_eq_some_iff_append.mpr ⟨by simp [hp], mids, rest, rfl, fun x hx => by simp [h x hx]⟩

/-- The scheduler as a NEXT_END leaves it, without a target yet. -/
def waitingCut (s : State) : Cut := ⟨.waiting, none, false, none, false, s.roll.cut.pulse⟩

/-- The state that waits for a PANEL_END mark of panel `n` at `e`, with its cut point. -/
def waitingFor (e : Pos) (n : BitVec 16) (c : Pos × Bool) (s : State) : State :=
  { s with roll := { s.roll with
    cut := { waitingCut s with target := some ⟨e, n⟩, midpoint := c.2, point := some c.1 } } }

section
variable {p : Port} {m : Byte} {s : State}

theorem cutRequest_badValue (h : 1 < m.toNat) : cutRequest p [m] s = refuse .badValue s := if_pos h

theorem cutRequest_nextEnd : cutRequest p [0] s = cutNextEnd s := rfl

theorem cutRequest_force : cutRequest p [1] s = cutForce s := rfl

theorem cutNextEnd_busy (h : s.roll.cut.state ≠ .idle) : cutNextEnd s = refuse .busy s := if_pos h

theorem cutNextEnd_alone (h : s.roll.cut.state = .idle) (hm : ∀ x ∈ s.tracker.map, x.kind ≠ .panelEnd) :
    cutNextEnd s = ({ s with roll := { s.roll with cut := waitingCut s } }, ⟨.accepted, [0]⟩) := by
  have hc : ∀ f, chooseTarget (s.onCut f) = s.onCut f := fun f => by
    rw [chooseTarget, State.onCut_tracker, endMark_none hm]
  rw [cutNextEnd, if_neg (not_not.mpr h), hc]
  rfl

theorem cutNextEnd_target {before later : List Mark} {e : Mark} {n : BitVec 16} (h : s.roll.cut.state = .idle)
    (hm : s.tracker.map = before ++ e :: later) (hb : ∀ x ∈ before, x.kind ≠ .panelEnd) (he : e.kind = .panelEnd)
    (hn : e.panel = some n) :
    cutNextEnd s =
      (waitingFor e.pos n (cutPoint s.roll.geo e.pos ((firstStart later).map Mark.pos)) s, ⟨.accepted, [1]⟩) := by
  have hc : ∀ f, chooseTarget (s.onCut f) = takeTarget e later (s.onCut f) := fun f => by
    rw [chooseTarget, State.onCut_tracker, hm, endMark_some hb he]
  rw [cutNextEnd, if_neg (not_not.mpr h), hc, takeTarget, hn]
  rfl

/-! ### The knife fired by a FORCE (R171) -/

/-- The state with the knife fired, the table as a FORCE leaves it and CUT_DONE told of a panel. -/
def knifeForced (num : BitVec 16) (flag : Byte) (table : List PanelRec) (s : State) : State :=
  { s with
    roll := { s.roll with cut := ⟨.fired, none, false, none, true, some (s.roll.geo.cutPulse * 10)⟩ }
    tracker := { s.tracker with table := table }
    router := s.router.map (notePort .cutDone (posBytes s.tracker.pOut ++ [1] ++ panelBytes num ++ [flag])) }

theorem cutForce_busy (h : s.roll.cut.state = .fired) : cutForce s = refuse .busy s := if_pos h

theorem cutForce_nowhere (h : s.roll.cut.state ≠ .fired)
    (ht : ∀ r ∈ s.tracker.table, covers (s.tracker.pOut - BitVec.ofNat 32 s.roll.geo.lK) r = false) :
    cutForce s = okWith [] (knifeForced 0 0 s.tracker.table s) := by
  have hnone : panelAtCut s = none := by
    rw [panelAtCut, List.find?_eq_none.mpr fun r hr => by rw [dist, ht r hr]; decide, Option.map_none]
  rw [cutForce, if_neg h, hnone]
  rfl

/-- The oldest record at the knife position is the only one flagged. -/
theorem flagCutThrough_eq {before after : List PanelRec} {r : PanelRec}
    (ht : s.tracker.table = before ++ r :: after) (hu : ∀ q ∈ before ++ after, q.number ≠ r.number) :
    flagCutThrough (some r.number) s =
      { s with tracker := { s.tracker with table := before ++ { r with cutThrough := true } :: after } } := by
  have hkeep : ∀ l : List PanelRec, (∀ q ∈ l, q.number ≠ r.number) →
      l.map (fun q => if q.number = r.number then { q with cutThrough := true } else q) = l := fun l hl => by
    conv_rhs => rw [← List.map_id l]
    exact List.map_congr_left fun q hq => if_neg (hl q hq)
  obtain ⟨hb, ha⟩ := List.forall_mem_append.mp hu
  rw [flagCutThrough, onPanel, State.onTracker, ht, List.map_append, List.map_cons, hkeep before hb, hkeep after ha,
    if_pos rfl]

theorem cutForce_through {before after : List PanelRec} {r : PanelRec} (h : s.roll.cut.state ≠ .fired)
    (ht : s.tracker.table = before ++ r :: after)
    (hb : ∀ q ∈ before, covers (s.tracker.pOut - BitVec.ofNat 32 s.roll.geo.lK) q = false)
    (hr : covers (s.tracker.pOut - BitVec.ofNat 32 s.roll.geo.lK) r = true)
    (hu : ∀ q ∈ before ++ after, q.number ≠ r.number) :
    cutForce s = okWith [] (knifeForced r.number 1 (before ++ { r with cutThrough := true } :: after) s) := by
  have hat : panelAtCut s = some r.number := by
    have hfind : s.tracker.table.find? (covers (s.tracker.pOut - dist s.roll.geo.lK)) = some r :=
      List.find?_eq_some_iff_append.mpr ⟨hr, before, after, ht, fun q hq => by rw [Bool.not_eq_true']; exact hb q hq⟩
    rw [panelAtCut, hfind, Option.map_some]
  rw [cutForce, if_neg h, hat, flagCutThrough_eq ht hu]
  rfl

/-! ### A cancel (R172) -/

theorem cutCancel_waiting {pl : List Byte} (h : s.roll.cut.state = .waiting) :
    cutCancel p pl s = okWith [] { s with roll := { s.roll with
      cut := { s.roll.cut with state := .idle, target := none, midpoint := false, point := none } } } := by
  rw [cutCancel, h]
  dsimp only
  rw [withdrawCut, if_pos h]
  rfl

theorem cutCancel_tooLate {pl : List Byte}
    (h : s.roll.cut.state = .fired ∨ (s.roll.cut.state = .idle ∧ s.roll.cut.fired = true)) :
    cutCancel p pl s = refuse .tooLate s := by
  rcases h with h | ⟨h, hf⟩
  · rw [cutCancel, h]
  · rw [cutCancel, h]; exact if_pos hf

theorem cutCancel_wrongState {pl : List Byte} (h : s.roll.cut.state = .idle) (hf : s.roll.cut.fired = false) :
    cutCancel p pl s = refuse .wrongState s := by
  rw [cutCancel, h]
  exact if_neg (by rw [hf]; decide)

/-- Both rows of CUT_REQUEST do what their payload says. -/
theorem exec_cutRequest {c : Instr} {f : Frame} (hf : f.port = .roll) (hl : f.payload.length = 1)
    (h : c = .cutRequestNextEnd f ∨ c = .cutRequestForce f) :
    exec c s = .next (answeredBy 0x34 cutRequest f s) := by
  have h60 : f.payload.length ≤ 60 := hl ▸ by decide
  have h1 : exactly 1 f.payload.length = true := by rw [hl]; rfl
  rcases h with rfl | rfl
  · exact exec_cutRequestNextEnd s h60 hf h1
  · exact exec_cutRequestForce s h60 hf h1

end

end Sys2Proof.Machine

namespace Sys2Proof.Proofs

open Sys2Proof.Machine Sys2Proof.Safety

/-- Settles O44: the block by the kind and the scheduler's state, the marks and the table searched as R169 and R171
say. -/
theorem cutRequests : Obligations.CutRequests := by
  intro m extra c s f g k waiting knife
  refine ⟨fun hc => ?request, fun h => ?waiting, fun h => ?tooLate, fun h hf => ?wrongState⟩
  case request =>
    have hexec := exec_cutRequest (s := s) rfl rfl hc
    refine ⟨fun h => ?badValue, ?nextBusy, ?alone, ?target, ?forceBusy, ?force⟩
    case badValue => exact hexec.trans (congrArg _ (answeredBy_refused (cutRequest_badValue h)))
    case nextBusy =>
      rintro rfl h
      exact hexec.trans (congrArg _ (answeredBy_refused (cutNextEnd_busy (s := received 0x34 f s) h)))
    case alone =>
      rintro rfl h hm
      have hblock : cutRequest f.port f.payload (received 0x34 f s) = _ :=
        cutNextEnd_alone (s := received 0x34 f s) h hm
      exact hexec.trans (congrArg _ (answeredBy_eq hblock rfl))
    case target =>
      rintro before e later n rfl h hm hb he hn at' plain
      have hblock : cutRequest f.port f.payload (received 0x34 f s) = _ :=
        cutNextEnd_target (s := received 0x34 f s) h hm hb he hn
      have hnext := hexec.trans (congrArg _ (answeredBy_eq hblock rfl))
      refine ⟨fun hnone => ?_, fun mids p rest hlater hmids hp => ?_⟩
      · rw [firstStart_none hnone] at hnext
        exact hnext
      · intro d middle
        rw [hlater, firstStart_some hmids hp, Option.map_some, cutPoint, received_roll] at hnext
        refine ⟨fun hd => ?_, fun hd => ?_⟩
        · rw [if_neg (Int.not_lt.mpr hd)] at hnext
          exact hnext
        · rw [if_pos hd] at hnext
          exact hnext
    case forceBusy =>
      rintro rfl h
      exact hexec.trans (congrArg _ (answeredBy_refused (cutForce_busy (s := received 0x34 f s) h)))
    case force =>
      rintro rfl h x cut' done
      refine ⟨fun ht => ?_, fun before r after ht hb hr hu => ?_⟩
      · have hblock : cutRequest f.port f.payload (received 0x34 f s) = _ :=
          cutForce_nowhere (s := received 0x34 f s) h ht
        exact hexec.trans (congrArg _ (answeredBy_eq hblock rfl))
      · have hblock : cutRequest f.port f.payload (received 0x34 f s) = _ :=
          cutForce_through (s := received 0x34 f s) h ht hb hr hu
        exact hexec.trans (congrArg _ (answeredBy_eq hblock rfl))
  all_goals refine (exec_cutCancel (f := g) s (Nat.zero_le _) rfl rfl).trans (congrArg _ ?_)
  case waiting => exact answeredBy_eq (cutCancel_waiting (s := received 0x35 g s) h) rfl
  case tooLate => exact answeredBy_refused (cutCancel_tooLate (s := received 0x35 g s) h)
  case wrongState => exact answeredBy_refused (cutCancel_wrongState (s := received 0x35 g s) h hf)

end Sys2Proof.Proofs
end

section
/-! SUPPORT. INPUT_SET: the settings its payload spells and their ranges, the filters they leave, and the emergency-stop
level re-read (R83 to R85, R148). -/

namespace Sys2Proof.Machine

open Sys2Proof.Safety

theorem inputSettingsOf_fields {pl : List Byte} (h : pl.length = 6) :
    inputSettingsOf pl =
      ⟨field pl 0 1, field pl 1 1, field pl 2 1, field pl 3 1, (field pl 4 1).testBit 0, (field pl 4 1).testBit 1,
        (field pl 4 1).testBit 2, (field pl 4 1).testBit 3, (field pl 4 1).testBit 4, (field pl 5 1).testBit 0,
        (field pl 5 1).testBit 1⟩ := by
  rw [inputSettingsOf, field_u8 pl 0 (by omega), field_u8 pl 1 (by omega), field_u8 pl 2 (by omega),
    field_u8 pl 3 (by omega), field_u8 pl 4 (by omega), field_u8 pl 5 (by omega)]

theorem inputSettingsOk_iff {pl : List Byte} (h : pl.length = 6) :
    inputSettingsOk pl = true ↔
      field pl 0 1 ≤ 15 ∧ field pl 1 1 ≤ 15 ∧ field pl 2 1 ≤ 15 ∧ field pl 3 1 ≤ 15 ∧ field pl 4 1 ≤ 31 ∧
        field pl 5 1 ≤ 3 := by
  rw [field_u8 pl 0 (by omega), field_u8 pl 1 (by omega), field_u8 pl 2 (by omega), field_u8 pl 3 (by omega),
    field_u8 pl 4 (by omega), field_u8 pl 5 (by omega)]
  simp only [inputSettingsOk, Bool.and_eq_true, decide_eq_true_eq, and_assoc]

theorem sameWiring_iff (a b : InputSettings) :
    sameWiring a b = true ↔
      (∀ sw, polarityOf a sw = polarityOf b sw) ∧ a.estopPol = b.estopPol ∧ a.infeedReversed = b.infeedReversed ∧
        a.outfeedReversed = b.outfeedReversed := by
  have hsw : (∀ sw, polarityOf a sw = polarityOf b sw) ↔
      a.bladeHomePol = b.bladeHomePol ∧ a.hoodUpPol = b.hoodUpPol ∧ a.hoodDownPol = b.hoodDownPol ∧
        a.jointDetectorPol = b.jointDetectorPol := by
    refine ⟨fun h => ⟨h .bladeHome, h .hoodUp, h .hoodDown, h .jointDetector⟩, fun ⟨h1, h2, h3, h4⟩ sw => ?_⟩
    cases sw
    exacts [h1, h2, h3, h4]
  rw [hsw]
  simp only [sameWiring, Bool.and_eq_true, beq_iff_eq, and_assoc]

/-- A switch's filter under new settings (R83, R85). -/
def rewiredFilter (c : InputSettings) (s : State) (sw : Switch) : Filter :=
  if polarityOf c sw = polarityOf s.tracker.set sw then
    { filterOf s.tracker sw with
      timer := (filterOf s.tracker sw).timer.map fun left =>
        if filterTimeOf c sw = filterTimeOf s.tracker.set sw then left else filterTimeOf c sw }
  else ⟨pinOf s.pins sw == polarityOf c sw, none⟩

/-- The state under new settings, the emergency stop not yet re-read. -/
def rewired (c : InputSettings) (s : State) : State :=
  { s with tracker := { s.tracker with
      set := c, bladeHome := rewiredFilter c s .bladeHome, hoodUp := rewiredFilter c s .hoodUp
      hoodDown := rewiredFilter c s .hoodDown, jointDetector := rewiredFilter c s .jointDetector } }

section
variable {s : State} (c : InputSettings)

theorem filterOf_rewired (sw : Switch) : filterOf (rewired c s).tracker sw = rewiredFilter c s sw := by cases sw <;> rfl

theorem refilter_eq (sw : Switch) :
    refilter (polarityOf s.tracker.set sw == polarityOf c sw) (pinOf s.pins sw == polarityOf c sw)
      (filterTimeOf s.tracker.set sw) (filterTimeOf c sw) (filterOf s.tracker sw) = rewiredFilter c s sw := by
  simp only [refilter, rewiredFilter, beq_iff_eq, eq_comm (a := polarityOf s.tracker.set sw),
    eq_comm (a := filterTimeOf s.tracker.set sw)]

theorem refilterSwitch_all :
    [Switch.bladeHome, .hoodUp, .hoodDown, .jointDetector].foldl (fun a sw => refilterSwitch s.tracker.set sw a)
      (s.onTracker fun t => { t with set := c }) = rewired c s := by
  simp only [rewired, ← refilter_eq]
  rfl

variable {p : Port} {pl : List Byte}

theorem inputSet_badValue (h : ¬inputSettingsOk pl = true) : inputSet p pl s = refuse .badValue s :=
  if_pos (Bool.eq_false_iff.mpr h)

theorem inputSet_wrongState (h : inputSettingsOk pl = true) (hw : ¬sameWiring (inputSettingsOf pl) s.tracker.set = true)
    (hb : ¬Bare s) : inputSet p pl s = refuse .wrongState s :=
  (if_neg (by rw [h]; decide)).trans
    (if_pos ⟨Bool.eq_false_iff.mpr hw, Bool.eq_false_iff.mpr fun he => hb ((webEmpty_iff s).mp he)⟩)

theorem inputSet_taken (h : inputSettingsOk pl = true)
    (hw : sameWiring (inputSettingsOf pl) s.tracker.set = true ∨ Bare s) :
    inputSet p pl s = okWith [] (settle (giveEstop (s.pins.estop == (inputSettingsOf pl).estopPol)
      (rewired (inputSettingsOf pl) s))) := by
  have hok : ¬(sameWiring (inputSettingsOf pl) s.tracker.set = false ∧ webEmpty s = false) := by
    rintro ⟨hn, he⟩
    rcases hw with hw | hb
    · rw [hw] at hn; cases hn
    · rw [(webEmpty_iff s).mpr hb] at he; cases he
  rw [← refilterSwitch_all]
  exact (if_neg (by rw [h]; decide)).trans (if_neg hok)

theorem giveEstop_same {b : Bool} (h : b = s.monitor.estop) : giveEstop b s = quiet s := if_pos h

/-- The level given is the level held. -/
theorem giveEstop_leaves (b : Bool) (s : State) :
    (giveEstop b s).1 = { s with monitor := { s.monitor with estop := b } } := by
  unfold giveEstop
  split
  · next h => rw [h]; rfl
  · rfl

end

end Sys2Proof.Machine

namespace Sys2Proof.Proofs

open Sys2Proof.Machine Sys2Proof.Safety

/-- Settles O29: the checks, then the four filters and the level given to the Monitor Unit, which no trip that follows
changes. -/
theorem inputSet : Obligations.InputSet := by
  intro pl extra s hlen f flag c old ok sameWires filter
  have hc : inputSettingsOf pl = c := inputSettingsOf_fields hlen
  have hok : inputSettingsOk pl = true ↔ ok := inputSettingsOk_iff hlen
  have hsame : sameWiring (inputSettingsOf pl) s.tracker.set = true ↔ sameWires := by rw [sameWiring_iff, hc]
  have hexec := exec_inputSet (f := f) s (by rw [hlen]; decide) rfl (by rw [hlen]; rfl)
  refine ⟨fun hbad => ?badValue, fun h hw hb => ?wrongState, fun h hw => ?taken⟩
  case badValue => exact hexec.trans (congrArg _ (answeredBy_refused (inputSet_badValue (mt hok.mp hbad))))
  case wrongState =>
    exact hexec.trans (congrArg _ (answeredBy_refused
      (inputSet_wrongState (s := received 0x1B f s) (hok.mpr h) (mt hsame.mp hw) hb)))
  case taken =>
    have hblock := inputSet_taken (s := received 0x1B f s) (p := f.port) (hok.mpr h) (hw.imp hsame.mpr id)
    rw [hc, received_pins] at hblock
    have hgiven := giveEstop_leaves (s.pins.estop == c.estopPol) (rewired c (received 0x1B f s))
    refine ⟨_, hexec.trans (congrArg _ (answeredBy_eq hblock ?_)), rfl, ?_, fun sw => ?_, ?_, fun hs hj => ?_⟩
    · rw [settle_ports, hgiven]; rfl
    · exact (settle_inputs _).trans (by rw [hgiven]; rfl)
    · exact (filterOf_settle sw _).trans (by rw [hgiven]; exact filterOf_rewired c sw)
    · exact (settle_estop _).trans (by rw [hgiven])
    · have hstill : settle (giveEstop (s.pins.estop == c.estopPol) (rewired c (received 0x1B f s))) =
          rewired c (received 0x1B f s) := by
        rw [giveEstop_same (s := rewired c (received 0x1B f s)) hs]
        exact (settle_quiet _).trans (flagJoints_self hj)
      rw [hstill]
      rfl

end Sys2Proof.Proofs
end

section
/-! SUPPORT. FAULT_CLEAR: each zone with its monitor on its own (R119, R142, R149), then a line that leaves TRIPPED for
STOPPED (R184). -/

namespace Sys2Proof.Machine

open Sys2Proof.Safety

/-! ### One zone -/

/-- FAULT_CLEAR releases a zone from TRIPPED (R149). -/
def tripFreed (q : Zone) (k : ZoneMonitor) : Bool :=
  decide (q.state = .tripped) && (decide (k.hold = .latch) || decide (k.hold = .target) && k.targetChanged)

/-- FAULT_CLEAR releases a zone from PROBE_FAULT (R149). -/
def probeFreed (q : Zone) (k : ZoneMonitor) : Bool := decide (q.state = .probeFault) && k.probeFlagged

theorem clearsTrip_eq (s : State) (z : Fin 4) :
    clearsTrip s z = tripFreed (s.zones.get z) (s.monitor.zones.get z) := rfl

theorem clearsProbe_eq (s : State) (z : Fin 4) :
    clearsProbe s z = probeFreed (s.zones.get z) (s.monitor.zones.get z) := rfl

/-- A zone and its monitor after FAULT_CLEAR. -/
def faultCleared (x : Zone × ZoneMonitor) : Zone × ZoneMonitor :=
  (if tripFreed x.1 x.2 || probeFreed x.1 x.2 then releasedZone x.1 else x.1,
    { x.2 with
      warn := false, retry := false, probeFlagged := false
      hold := if tripFreed x.1 x.2 then .none else x.2.hold
      targetChanged := x.2.targetChanged && !tripFreed x.1 x.2 })

/-- A zone and its monitor. -/
def atZone (s : State) (z : Fin 4) : Zone × ZoneMonitor := (s.zones.get z, s.monitor.zones.get z)

theorem atZone_changed (s : State) (z y : Fin 4) (f : Zone → Zone) (g : ZoneMonitor → ZoneMonitor) :
    atZone ((s.onZone z f).onZoneMonitor z g) y =
      if y = z then (f (s.zones.get z), g (s.monitor.zones.get z)) else atZone s y := by
  simp only [atZone, State.onZone, State.onZoneMonitor, Four.get_set]
  split <;> rfl

/-- FAULT_CLEAR at a zone changes that zone and its monitor. -/
theorem clearZone_eq (s : State) (z : Fin 4) :
    clearZone s z = (s.onZone z fun _ => (faultCleared (atZone s z)).1).onZoneMonitor z
      fun _ => (faultCleared (atZone s z)).2 := by
  cases ht : tripFreed (s.zones.get z) (s.monitor.zones.get z) with
  | true =>
    have hs : (s.zones.get z).state = .tripped := by
      rw [tripFreed, Bool.and_eq_true, decide_eq_true_eq] at ht
      exact ht.1
    have hp : probeFreed (s.zones.get z) (s.monitor.zones.get z) = false := by
      rw [probeFreed, hs]; rfl
    simp [clearZone, clearsTrip_eq, clearsProbe_eq, ht, hp, releaseTrip, hs, State.onZone, State.onZoneMonitor,
      faultCleared, atZone, holdEnded]
  | false =>
    cases hp : probeFreed (s.zones.get z) (s.monitor.zones.get z) with
    | true =>
      have hs : (s.zones.get z).state = .probeFault := by
        rw [probeFreed, Bool.and_eq_true, decide_eq_true_eq] at hp
        exact hp.1
      simp [clearZone, clearsTrip_eq, clearsProbe_eq, ht, hp, releaseProbe, hs, State.onZone, State.onZoneMonitor,
        faultCleared, atZone]
    | false =>
      simp [clearZone, clearsTrip_eq, clearsProbe_eq, ht, hp, State.onZone, State.onZoneMonitor, faultCleared, atZone,
        Four.set_get]

theorem atZone_clearZone (s : State) (z y : Fin 4) :
    atZone (clearZone s z) y = if y = z then faultCleared (atZone s y) else atZone s y := by
  rw [clearZone_eq, atZone_changed]
  split
  · next h => rw [h]
  · rfl

/-! ### All zones -/

theorem atZone_clearZones {l : List (Fin 4)} (hl : l.Nodup) (s : State) (y : Fin 4) :
    atZone (l.foldl clearZone s) y = if y ∈ l then faultCleared (atZone s y) else atZone s y := by
  induction l generalizing s with
  | nil => rfl
  | cons z zs ih =>
    obtain ⟨hz, hzs⟩ := List.nodup_cons.mp hl
    rw [List.foldl_cons, ih hzs, atZone_clearZone]
    by_cases hy : y = z
    · subst hy
      simp [hz]
    · simp [hy]

/-- The state with FAULT_CLEAR done at the four zones. -/
def zonesCleared (s : State) : State := zonesInOrder.foldl clearZone s

theorem atZone_zonesCleared (s : State) (z : Fin 4) : atZone (zonesCleared s) z = faultCleared (atZone s z) := by
  rw [zonesCleared, atZone_clearZones (by decide), if_pos (mem_zonesInOrder z)]

/-- Nothing else is touched. -/
theorem zonesCleared_frame (s : State) :
    ∃ zs ms, zonesCleared s = { s with zones := zs, monitor := { s.monitor with zones := ms } } := by
  have hfold : ∀ (l : List (Fin 4)) (u : State),
      (∃ zs ms, u = { s with zones := zs, monitor := { s.monitor with zones := ms } }) →
      ∃ zs ms, l.foldl clearZone u = { s with zones := zs, monitor := { s.monitor with zones := ms } } := by
    intro l
    induction l with
    | nil => exact fun _ hu => hu
    | cons z l ih =>
      rintro u ⟨zs, ms, rfl⟩
      exact ih _ (by rw [clearZone_eq]; exact ⟨_, _, rfl⟩)
  exact hfold zonesInOrder s ⟨s.zones, s.monitor.zones, rfl⟩

/-! ### The line (R184) -/

theorem leaveBoundaryHold_bridge {s : State} (h : s.former.state ≠ .bridge) :
    (leaveBoundaryHold s).former.state ≠ .bridge := by
  unfold leaveBoundaryHold
  split
  · rw [production_former (production_withdrawCauses _)]
    exact FormerState.noConfusion
  · exact h

/-- The end of a hold at a boundary reaches the Supervisor's hold causes only (R63). -/
theorem leaveBoundaryHold_sup {α : Type} (g : Supervisor → α)
    (hg : ∀ v, g { v with causes := ⟨false, false, false⟩, spliceLimit := false } = g v) (s : State) :
    g (leaveBoundaryHold s).sup = g s.sup := by
  have hmotion := congrArg Prod.fst (motion_leaveBoundaryHold s)
  exact (hg _).symm.trans ((congrArg g hmotion).trans (hg _))

/-- Entry to STOPPED: the line's own part, a bridge not begun, and the settled condition to examine (R177, R182). -/
theorem enterStopped_line {s : State} (h : s.former.state ≠ .bridge) :
    (enterLine .stopped s).2 = [.settled false] ∧ (enterLine .stopped s).1.former.state ≠ .bridge ∧
      (enterLine .stopped s).1.sup.line = .stopped ∧ (enterLine .stopped s).1.sup.prev = s.sup.line ∧
      (enterLine .stopped s).1.sup.tripCause = s.sup.tripCause ∧ (enterLine .stopped s).1.sup.hoodDown = false := by
  unfold enterLine
  dsimp only
  generalize hx : s.onSup _ = x
  have hprev : x.sup.line = s.sup.line := hx ▸ rfl
  have hcause : x.sup.tripCause = s.sup.tripCause := hx ▸ rfl
  have hformer : x.former = s.former := hx ▸ rfl
  obtain ⟨zs, ms, hset⟩ := setLine_eq (s := x) .stopped
  obtain ⟨timer, hhood⟩ := commandHood_up (s := setLine .stopped x) (by rw [hset, ← hx]; rfl) (by rw [hset, ← hx]; rfl)
  refine ⟨rfl, leaveBoundaryHold_bridge ?_, (leaveBoundaryHold_sup Supervisor.line (fun _ => rfl) _).trans ?_,
    (leaveBoundaryHold_sup Supervisor.prev (fun _ => rfl) _).trans ?_,
    (leaveBoundaryHold_sup Supervisor.tripCause (fun _ => rfl) _).trans ?_,
    (leaveBoundaryHold_sup Supervisor.hoodDown (fun _ => rfl) _).trans ?_⟩ <;> rw [hhood, hset]
  · exact hformer ▸ h
  · exact hprev
  · exact hcause

/-- The state a TRIPPED line is stopped from. -/
def recovering (s : State) : State :=
  { s with sup := { s.sup with tripCause := none }, tracker := { s.tracker with high := s.tracker.pOut } }

theorem clearLine_tripped {s : State} (h : s.sup.line = .tripped) :
    clearLine s = ((enterLine .stopped (recovering s)).1,
      (enterLine .stopped (recovering s)).2 ++ [.settled false]) := if_pos h

theorem clearLine_other {s : State} (h : s.sup.line ≠ .tripped) : clearLine s = (s, [.settled false]) := if_neg h

/-- What no cascade changes, the line's recovery leaves too, but for the high-water mark. -/
theorem kept_clearLine (s : State) : kept (clearLine s).1 =
    { kept s with high := if s.sup.line = .tripped then s.tracker.pOut else s.tracker.high } := by
  by_cases h : s.sup.line = .tripped
  · rw [clearLine_tripped h, kept_enterLine, if_pos h]
    rfl
  · rw [clearLine_other h, if_neg h]
    rfl

theorem settle_clearLine_zones (s : State) (z : Fin 4) :
    zoneBody ((settle (clearLine s)).zones.get z) = zoneBody (s.zones.get z) ∧
      monitorBody ((settle (clearLine s)).monitor.zones.get z) = monitorBody (s.monitor.zones.get z) := by
  rw [settle_zoneBody, settle_monitorBody]
  have hz := congrArg (fun k => k.zones.get z) (kept_clearLine s)
  have hm := congrArg (fun k => k.monitor.zones.get z) (kept_clearLine s)
  exact ⟨by simpa [kept] using hz, by simpa [kept] using hm⟩

/-- A line recovered: STOPPED, with no cause and the hood commanded up (R184). -/
theorem settle_clearLine_tripped {s : State} (h : s.sup.line = .tripped) (hb : s.former.state ≠ .bridge) :
    (settle (clearLine s)).sup.line = .stopped ∧ (settle (clearLine s)).sup.prev = .tripped ∧
      (settle (clearLine s)).sup.tripCause = none ∧ (settle (clearLine s)).sup.hoodDown = false := by
  obtain ⟨hsig, hformer, hline, hprev, hcause, hhood⟩ := enterStopped_line (s := recovering s) hb
  rw [clearLine_tripped h, hsig]
  generalize (enterLine .stopped (recovering s)).1 = x at *
  obtain ⟨T, hflag, -⟩ := flagJoints_table x
  refine Leads.settle (w := (x, [.settled false, .settled false])) (k := 6)
    (Q := fun t => t.sup.line = .stopped ∧ t.sup.prev = .tripped ∧ t.sup.tripCause = none ∧ t.sup.hoodDown = false)
    ?_ (by decide)
  refine Leads.calm (k := 0) (rest := []) (gs := [.settled false, .settled false]) (by simp [calmSignal]) ?_ ?_
    (jointFlags_flagJoints x) fun u hu => Leads.done ?_
  · rw [hflag]
    exact fun hn => LineState.noConfusion (hline.symm.trans hn)
  · rw [hflag]; exact hformer
  · obtain ⟨⟨b, r, rfl⟩, -⟩ := hu
    rw [hflag]
    exact ⟨hline, hprev.trans h, hcause, hhood⟩

section
variable {p : Port} {pl : List Byte} {s : State}

theorem faultClear_wrongState (h : s.sup.line = .tripped) (he : s.monitor.estop = true) :
    faultClear p pl s = refuse .wrongState s := if_pos ⟨h, he⟩

theorem faultClear_taken (h : s.sup.line ≠ .tripped ∨ s.monitor.estop = false) :
    faultClear p pl s =
      okWith (byte1 (zoneSet (clearsTrip s)) ++ byte1 (zoneSet (clearsProbe s)) ++ byte1 (zoneSet (leftTripped s)))
        (settle (clearLine (zonesCleared s))) := by
  refine if_neg fun hn => ?_
  rcases h with h | h
  · exact h hn.1
  · rw [h] at hn; cases hn.2

end

end Sys2Proof.Machine

namespace Sys2Proof.Proofs

open Sys2Proof.Machine Sys2Proof.Safety

/-- Settles O38: the zones one by one, which no settling changes in what is compared, and the line's recovery. -/
theorem faultClear : Obligations.FaultClear := by
  intro extra s f held k freed sound left
  have hexec := exec_faultClear (f := f) s (Nat.zero_le _) rfl rfl
  refine ⟨fun h he => ?wrongState, fun h => ?taken⟩
  case wrongState =>
    exact hexec.trans (congrArg _ (answeredBy_refused (faultClear_wrongState (s := received 0x17 f s) h he)))
  case taken =>
    have hblock := faultClear_taken (s := received 0x17 f s) (p := f.port) (pl := f.payload) h
    have hat := fun z => atZone_zonesCleared (received 0x17 f s) z
    obtain ⟨zs, ms, hframe⟩ := zonesCleared_frame (received 0x17 f s)
    generalize zonesCleared (received 0x17 f s) = x at hblock hat hframe
    have hkept := kept_clearLine x
    have hports : (settle (clearLine x)).ports = (received 0x17 f s).ports :=
      (settle_ports _).trans ((congrArg Kept.ports hkept).trans (by rw [hframe]; rfl))
    have hhigh : (settle (clearLine x)).tracker.high =
        if s.sup.line = .tripped then s.tracker.pOut else s.tracker.high :=
      (settle_high _).trans ((congrArg Kept.high hkept).trans (by rw [hframe]; rfl))
    refine ⟨_, hexec.trans (congrArg _ (answeredBy_eq hblock hports)), rfl, fun z => ?zone, fun z => ?monitor,
      fun hl => hhigh.trans (if_neg hl), fun hl hb => ?line⟩
    case zone =>
      refine (settle_clearLine_zones x z).1.trans ?_
      rw [show x.zones.get z = _ from congrArg Prod.fst (hat z)]
      have hfreed : tripFreed (s.zones.get z) (s.monitor.zones.get z) = freed z := rfl
      have hsound : probeFreed (s.zones.get z) (s.monitor.zones.get z) = sound z := rfl
      simp only [faultCleared, atZone, received_zones, received_monitor, hfreed, hsound]
      split <;> rfl
    case monitor =>
      have hm := (settle_clearLine_zones x z).2
      rw [show x.monitor.zones.get z = _ from congrArg Prod.snd (hat z)] at hm
      exact ⟨congrArg ZoneMonitor.warn hm, congrArg ZoneMonitor.retry hm, congrArg ZoneMonitor.probeFlagged hm,
        congrArg ZoneMonitor.hold hm⟩
    case line =>
      have hline : x.sup.line = .tripped := by rw [hframe]; exact hl
      obtain ⟨h1, h2, h3, h4⟩ := settle_clearLine_tripped hline (by rw [hframe]; exact hb)
      exact ⟨h1, h2, h3, h4, hhigh.trans (if_pos hl)⟩

end Sys2Proof.Proofs
end

section
/-! SUPPORT. The zones but for target, blank and settle count: every command that is not the zones' own leaves them as they
are, whatever follows from it (R113, R114). -/

namespace Sys2Proof.Machine

open Sys2Proof.Safety

/-- The zones without what a target or a settling gives them. -/
def zoneBodies (s : State) : Four Zone := s.zones.map zoneBody

theorem zoneBodies_of_kept {s t : State} (h : kept t = kept s) : zoneBodies t = zoneBodies s := congrArg Kept.zones h

/-- The bodies of a state that is kept as another is whose bodies are known. -/
theorem zoneBodies_through {u s t : State} (h : kept t = kept u) (hu : zoneBodies u = zoneBodies s) :
    zoneBodies t = zoneBodies s := (zoneBodies_of_kept h).trans hu

theorem zoneBodies_settle (w : Work) : zoneBodies (settle w) = zoneBodies w.1 := zoneBodies_of_kept (kept_settle w)

theorem zoneBodies_settle_of {w : Work} {s : State} (h : zoneBodies w.1 = zoneBodies s) :
    zoneBodies (settle w) = zoneBodies s := (zoneBodies_settle w).trans h

theorem zoneBodies_ite {c : Prop} [Decidable c] {a b s : State} (ha : zoneBodies a = zoneBodies s)
    (hb : zoneBodies b = zoneBodies s) : zoneBodies (if c then a else b) = zoneBodies s := by
  split
  · exact ha
  · exact hb

theorem zoneBodies_serve {kind : Byte} {auth : Option Port} {lengthOk : Nat → Bool}
    {block : Port → List Byte → State → State × Answer}
    (hb : ∀ p pl (s : State), zoneBodies (block p pl s).1 = zoneBodies s) (f : Frame) (s : State) :
    zoneBodies (serve kind auth lengthOk block f s) = zoneBodies s := by
  unfold serve
  dsimp only
  split
  · rfl
  · split
    · rfl
    · split
      · exact hb _ _ _
      · rfl

/-! ### Requests of the other blocks -/

section
variable (p : Port) (pl : List Byte) (s : State)

theorem zoneBodies_statusRead : zoneBodies (statusRead p pl s).1 = zoneBodies s := by
  unfold statusRead
  split
  case h_2 | h_5 => split <;> rfl
  case h_7 =>
    show zoneBodies (afterSpliceView s) = _
    unfold afterSpliceView; split <;> rfl
  all_goals rfl

theorem zoneBodies_presenceSet : zoneBodies (presenceSet p pl s).1 = zoneBodies s := by
  unfold presenceSet; split <;> rfl

theorem zoneBodies_lineStart : zoneBodies (lineStart p pl s).1 = zoneBodies s := by
  have hrecipe : ∀ i, zoneBodies (recipeForRun i s) = zoneBodies s := fun i => zoneBodies_ite rfl rfl
  unfold lineStart; split
  · rfl
  · split
    · exact zoneBodies_settle_of ((zoneBodies_of_kept (kept_enterLine _ _)).trans (hrecipe _))
    · rfl

theorem kept_stopNow : kept (stopNow s).1 = kept s := by
  unfold stopNow followedBy; split
  case h_1 | h_2 | h_3 => rfl
  all_goals exact kept_enterLine _ s

theorem zoneBodies_lineStop : zoneBodies (lineStop p pl s).1 = zoneBodies s := by
  have hstop : zoneBodies (settle (stopNow s)) = zoneBodies s := zoneBodies_settle_of (zoneBodies_of_kept (kept_stopNow s))
  unfold lineStop; split
  · rfl
  · unfold stopLine; split
    case h_4 | h_5 => exact hstop
    case h_6 | h_7 =>
      split
      · rfl
      · exact hstop
    all_goals rfl

theorem zoneBodies_motionSet : zoneBodies (motionSet p pl s).1 = zoneBodies s := by
  unfold motionSet; dsimp only; split
  · rfl
  · split <;> rfl

theorem zoneBodies_recipeSet : zoneBodies (recipeSet p pl s).1 = zoneBodies s := by
  unfold recipeSet; dsimp only; split
  · rfl
  · split
    · rfl
    · split <;> rfl

theorem zoneBodies_formerSet : zoneBodies (formerSet p pl s).1 = zoneBodies s := by
  unfold formerSet; dsimp only; split
  · rfl
  · split
    · rfl
    · split <;> rfl

theorem zoneBodies_tunnelSet : zoneBodies (tunnelSet p pl s).1 = zoneBodies s := by
  unfold tunnelSet; dsimp only; split
  · rfl
  · split <;> rfl

theorem zoneBodies_giveEstop (b : Bool) : zoneBodies (giveEstop b s).1 = zoneBodies s := by
  unfold giveEstop; split <;> rfl

theorem zoneBodies_inputSet : zoneBodies (inputSet p pl s).1 = zoneBodies s := by
  unfold inputSet; dsimp only; split
  · rfl
  · split
    · rfl
    · exact zoneBodies_settle_of (zoneBodies_giveEstop _ _)

theorem zoneBodies_rollGeometrySet : zoneBodies (rollGeometrySet p pl s).1 = zoneBodies s := by
  unfold rollGeometrySet; dsimp only; split
  · rfl
  · split <;> rfl

theorem zoneBodies_eventTake : zoneBodies (eventTake p pl s).1 = zoneBodies s := by
  unfold eventTake; dsimp only; split <;> rfl

theorem zoneBodies_routeSet : zoneBodies (routeSet p pl s).1 = zoneBodies s := by
  unfold routeSet; split <;> rfl

theorem zoneBodies_floorSet : zoneBodies (floorSet p pl s).1 = zoneBodies s := by
  unfold floorSet; split <;> rfl

theorem zoneBodies_patternBegin : zoneBodies (patternBegin p pl s).1 = zoneBodies s := by
  unfold patternBegin; dsimp only; split
  · rfl
  · split
    · rfl
    · split <;> rfl

theorem zoneBodies_patternSteps : zoneBodies (patternSteps p pl s).1 = zoneBodies s := by
  unfold patternSteps; split
  · rfl
  · dsimp only; split <;> rfl

theorem zoneBodies_patternEnd : zoneBodies (patternEnd p pl s).1 = zoneBodies s := by
  unfold patternEnd; split
  · rfl
  · dsimp only; split <;> rfl

theorem zoneBodies_patternDelete : zoneBodies (patternDelete p pl s).1 = zoneBodies s := by
  unfold patternDelete; dsimp only; split
  · rfl
  · split
    case h_2 => split <;> rfl
    all_goals rfl

theorem zoneBodies_orderQueue : zoneBodies (orderQueue p pl s).1 = zoneBodies s := by
  unfold orderQueue; split
  · rfl
  · split
    · rfl
    · split
      · rfl
      · split
        · rfl
        · exact zoneBodies_settle_of rfl

theorem zoneBodies_orderCancel : zoneBodies (orderCancel p pl s).1 = zoneBodies s := by
  unfold orderCancel; split
  · rfl
  · split
    · rfl
    · split
      · split
        · rfl
        · split
          · rfl
          · exact zoneBodies_settle_of (zoneBodies_of_kept (kept_retire 1 s))
      · exact zoneBodies_settle_of (zoneBodies_through (kept_queuedFell _) rfl)

theorem zoneBodies_reportTake : zoneBodies (reportTake p pl s).1 = zoneBodies s := by
  unfold reportTake; split
  · rfl
  · refine zoneBodies_settle_of ?_
    unfold makeWaitingReport; split
    · rfl
    · split
      · exact zoneBodies_through (kept_queueReport _ _) rfl
      · rfl

theorem zoneBodies_queueLowSet : zoneBodies (queueLowSet p pl s).1 = zoneBodies s := by
  unfold queueLowSet; split <;> rfl

theorem zoneBodies_rollStatus : zoneBodies (rollStatus p pl s).1 = zoneBodies s := by
  unfold rollStatus; split
  · rfl
  · split
    · rfl
    · exact zoneBodies_settle_of (zoneBodies_through (kept_testRollLow _) rfl)

theorem zoneBodies_spliceArm : zoneBodies (spliceArm p pl s).1 = zoneBodies s := by
  unfold spliceArm; split
  · rfl
  · split
    · rfl
    · exact zoneBodies_settle_of rfl

theorem zoneBodies_spliceForce : zoneBodies (spliceForce p pl s).1 = zoneBodies s := by
  unfold spliceForce; split
  · rfl
  · split
    · rfl
    · exact zoneBodies_through (kept_forceSplice _) rfl

theorem zoneBodies_spliceCancel : zoneBodies (spliceCancel p pl s).1 = zoneBodies s := by
  unfold spliceCancel; split
  case h_4 => rfl
  case h_5 => split <;> rfl
  all_goals exact zoneBodies_settle_of (zoneBodies_of_kept (kept_withdrawSplice none s))

theorem zoneBodies_withdrawCut : zoneBodies (withdrawCut s) = zoneBodies s := by
  unfold withdrawCut; split <;> rfl

theorem zoneBodies_cutRequest : zoneBodies (cutRequest p pl s).1 = zoneBodies s := by
  have hflag : ∀ n, zoneBodies (flagCutThrough n s) = zoneBodies s := by
    intro n
    unfold flagCutThrough; split <;> rfl
  unfold cutRequest; split
  · rfl
  · split
    · unfold cutNextEnd; split
      · rfl
      · exact zoneBodies_through (kept_chooseTarget _) rfl
    · unfold cutForce; split
      · rfl
      · exact hflag _

theorem zoneBodies_cutCancel : zoneBodies (cutCancel p pl s).1 = zoneBodies s := by
  unfold cutCancel; split
  · exact zoneBodies_withdrawCut s
  · rfl
  · split <;> rfl

/-! ### Counts, switches and timers of the other blocks -/

theorem zoneBodies_portLost : zoneBodies (portLost p s).1 = zoneBodies s := by
  cases p
  case line => exact zoneBodies_of_kept (kept_stopNow s)
  case pattern => rfl
  case roll => exact zoneBodies_withdrawCut s

theorem zoneBodies_shiftCells : zoneBodies (shiftCells s) = zoneBodies s := by
  have hjudge : ∀ c, zoneBodies (judgeCell c s) = zoneBodies s := by
    intro c
    unfold judgeCell; split
    · unfold offerCell; split <;> rfl
    · rfl
  exact zoneBodies_ite (hjudge _) rfl

theorem zoneBodies_cutCompare : zoneBodies (cutCompare s) = zoneBodies s := by
  unfold cutCompare; split
  · rfl
  · split <;> rfl

theorem zoneBodies_takeLevel (sw : Switch) : zoneBodies (takeLevel sw s) = zoneBodies s := by
  refine zoneBodies_ite rfl (zoneBodies_settle_of ?_)
  cases sw <;> dsimp only [edgeEffect] <;> split
  case hoodUp.isFalse | hoodDown.isTrue => exact zoneBodies_through (kept_deriveHood _) rfl
  case jointDetector.isTrue =>
    refine zoneBodies_through (kept_addJoint _ _ _) ?_
    unfold offerCapture; split
    · split <;> rfl
    · rfl
  all_goals rfl

theorem zoneBodies_doseSample : zoneBodies (doseSample s) = zoneBodies s := by
  unfold doseSample; split
  · rfl
  · split <;> rfl

theorem zoneBodies_speedUpdate : zoneBodies (speedUpdate s).1 = zoneBodies s := by
  have hheat : ∀ u, zoneBodies (takeHeatLimit u) = zoneBodies u := fun u =>
    zoneBodies_ite (zoneBodies_through (kept_setCauses _ _) rfl) rfl
  exact (hheat _).trans (zoneBodies_through (kept_retarget _) rfl)

end

/-- The commands that reach more of a zone than its target, blank count and settle count. -/
def zoneCommand : Instr → Bool
  | .deviceReset | .lineReset _ | .zoneSet _ | .zoneDisable _ | .zoneArm _ | .zoneEnable _ | .monitorSetZone _
  | .monitorSetLine _ | .faultClear _ | .probeSample _ _ | .regulationPeriod _ | .valveWindowStart _ | .valveClose _
  | .probeCheckTimer => true
  | _ => false

/-- Every other command leaves the zones' bodies, with all that follows from it. -/
theorem zoneBodies_exec {c : Instr} {s t : State} (hc : zoneCommand c = false) (h : exec c s = .next t) :
    zoneBodies t = zoneBodies s := by
  cases c
  case deviceReset | lineReset | zoneSet | zoneDisable | zoneArm | zoneEnable | monitorSetZone | monitorSetLine
    | faultClear | probeSample | regulationPeriod | valveWindowStart | valveClose | probeCheckTimer => cases hc
  case incompleteFrame p bytes =>
    simp only [exec, execIncompleteFrame] at h
    split at h <;> cases h
    rfl
  case unknownKindFrame kind f =>
    simp only [exec, execUnknownKindFrame] at h
    split at h <;> cases h
    split <;> rfl
  all_goals obtain rfl := Host.Outcome.next.inj h
  case nop f => exact zoneBodies_serve (fun _ _ _ => rfl) f s
  case lineView f | zoneView f | formerView f | queueView f | panelView f | mapView f | spliceView f | portView f =>
    exact zoneBodies_serve zoneBodies_statusRead f s
  case eventTake f => exact zoneBodies_serve zoneBodies_eventTake f s
  case routeSet f => exact zoneBodies_serve zoneBodies_routeSet f s
  case floorSet f => exact zoneBodies_serve zoneBodies_floorSet f s
  case presenceSet f => exact zoneBodies_serve zoneBodies_presenceSet f s
  case lineStart f => exact zoneBodies_serve zoneBodies_lineStart f s
  case lineStopImmediate f | lineStopEndOfPanel f => exact zoneBodies_serve zoneBodies_lineStop f s
  case speedSet f => exact zoneBodies_serve (block := speedSet) (fun _ _ _ => rfl) f s
  case recipeSet f => exact zoneBodies_serve zoneBodies_recipeSet f s
  case formerSet f => exact zoneBodies_serve zoneBodies_formerSet f s
  case tunnelSet f => exact zoneBodies_serve zoneBodies_tunnelSet f s
  case motionSet f => exact zoneBodies_serve zoneBodies_motionSet f s
  case inputSet f => exact zoneBodies_serve zoneBodies_inputSet f s
  case rollGeometrySet f => exact zoneBodies_serve zoneBodies_rollGeometrySet f s
  case patternBegin f => exact zoneBodies_serve zoneBodies_patternBegin f s
  case patternSteps f => exact zoneBodies_serve zoneBodies_patternSteps f s
  case patternEnd f => exact zoneBodies_serve zoneBodies_patternEnd f s
  case patternDelete f => exact zoneBodies_serve zoneBodies_patternDelete f s
  case orderQueue f => exact zoneBodies_serve zoneBodies_orderQueue f s
  case orderCancel f => exact zoneBodies_serve zoneBodies_orderCancel f s
  case reportTake f => exact zoneBodies_serve zoneBodies_reportTake f s
  case queueLowSet f => exact zoneBodies_serve zoneBodies_queueLowSet f s
  case rollStatus f => exact zoneBodies_serve zoneBodies_rollStatus f s
  case spliceArm f => exact zoneBodies_serve zoneBodies_spliceArm f s
  case spliceForce f => exact zoneBodies_serve zoneBodies_spliceForce f s
  case spliceCancel f => exact zoneBodies_serve zoneBodies_spliceCancel f s
  case cutRequestNextEnd f | cutRequestForce f => exact zoneBodies_serve zoneBodies_cutRequest f s
  case cutCancel f => exact zoneBodies_serve zoneBodies_cutCancel f s
  case presenceExpiry p => exact zoneBodies_ite (zoneBodies_settle_of (zoneBodies_portLost p _)) rfl
  case infeedCount a b => exact zoneBodies_ite rfl (zoneBodies_settle_of rfl)
  case outfeedCount a b =>
    dsimp only
    split
    · rfl
    · exact zoneBodies_settle_of ((zoneBodies_cutCompare _).trans (zoneBodies_shiftCells _))
    · exact zoneBodies_settle_of rfl
  case switchPinChange sw high =>
    exact zoneBodies_ite rfl (zoneBodies_ite (zoneBodies_takeLevel (s.onPins (setPin sw high)) sw) rfl)
  case filterExpiry sw => exact zoneBodies_ite (zoneBodies_takeLevel s sw) rfl
  case estopChange high => exact zoneBodies_settle_of (zoneBodies_giveEstop _ _)
  case feedTimeout | tuckEnd | pressEnd | bladeJam | breakTimerExpiry | hoodTimerExpiry =>
    exact zoneBodies_ite (zoneBodies_settle_of rfl) rfl
  case hoodDelayExpiry => exact zoneBodies_ite (zoneBodies_settle_of (zoneBodies_through (kept_commandHood _ _) rfl)) rfl
  case doseSample => exact zoneBodies_doseSample _
  case speedUpdate =>
    exact (zoneBodies_of_kept (kept_speedSteps _)).trans (zoneBodies_settle_of (zoneBodies_speedUpdate s))
  case cutPulseEnd => exact zoneBodies_ite rfl rfl
  all_goals rfl

end Sys2Proof.Machine
end

section
/-! SUPPORT. The valve duty law (R102, R113, R114): what each change of a zone makes of it, and every command of the
zones. -/

namespace Sys2Proof.Machine

open Sys2Proof.Safety

/-! ### One zone -/

section
variable {q : Zone}

/-- Without a duty and with the valve closed a zone keeps the law in every state. -/
theorem zoneDuty_zero (hd : q.duty = 0) (hw : q.windowDuty = 0) (hv : q.valve = false) : zoneDuty q :=
  ⟨hd ▸ Nat.zero_le _, hw ▸ Nat.zero_le _, fun h => absurd (hv.symm.trans h) Bool.false_ne_true⟩

/-- In a state whose bound is 0 there is no duty and the valve is closed. -/
theorem zoneDuty_shut (hb : dutyBound q = 0) (h : zoneDuty q) : q.duty = 0 ∧ q.windowDuty = 0 ∧ q.valve = false := by
  obtain ⟨hd, hw, hv⟩ := h
  rw [hb, Nat.le_zero] at hd hw
  refine ⟨hd, hw, Bool.eq_false_iff.mpr fun hopen => ?_⟩
  have hpos := hv hopen
  omega

theorem zoneDuty_stopped (st : ZoneState) : zoneDuty (stoppedZone st q) := zoneDuty_zero rfl rfl rfl

/-- A zone released from TRIPPED or PROBE_FAULT. -/
theorem zoneDuty_released (hb : dutyBound q = 0) (h : zoneDuty q) : zoneDuty (releasedZone q) := by
  obtain ⟨-, hw, hv⟩ := zoneDuty_shut hb h
  exact zoneDuty_zero rfl hw hv

/-- A zone enabled from OFF. -/
theorem zoneDuty_enabled {st : ZoneState} (ho : q.state = .off) (h : zoneDuty q) :
    zoneDuty { q with state := st, armed := false, soft := 0, hi := 0, purge := 0, settle := 0 } := by
  obtain ⟨hd, hw, hv⟩ := zoneDuty_shut (by rw [dutyBound, ho]) h
  exact zoneDuty_zero hd hw hv

theorem dutyBound_soft (h : q.state = .soft) : dutyBound q = min q.softDuty q.dutyMax := by rw [dutyBound, h]

theorem dutyBound_regulating (h : q.state = .regulating) : dutyBound q = q.dutyMax := by rw [dutyBound, h]

/-- The cap of a state is its bound, where the bound is not 0. -/
theorem dutyBound_cases (q : Zone) : dutyBound q = 0 ∧ (q.state ≠ .soft ∧ q.state ≠ .regulating) ∨
    dutyBound q = dutyCap q ∧ (q.state = .soft ∨ q.state = .regulating) := by
  unfold dutyBound dutyCap
  cases q.state <;> simp

/-- The duties brought under the cap of new settings: a window whose new duty is 0 has run it (R104, R115). -/
theorem zoneDuty_capped (pl : List Byte) (h : zoneDuty q) : zoneDuty (cappedDuties (zoneSettings pl q)) := by
  rcases dutyBound_cases q with ⟨hb, hs⟩ | ⟨-, hs⟩
  · obtain ⟨hd, hw, hv⟩ := zoneDuty_shut hb h
    refine zoneDuty_zero ?_ ?_ ?_
    · show min q.duty _ = 0
      rw [hd, Nat.zero_min]
    · show min q.windowDuty _ = 0
      rw [hw, Nat.zero_min]
    · show (q.valve && _) = false
      rw [hv, Bool.false_and]
  · generalize hx : zoneSettings pl q = x
    have hvalve : x.valve = true → 0 < x.windowDuty := by rw [← hx]; exact h.2.2
    have hbound : dutyBound (cappedDuties x) = dutyCap x := by
      have hst : x.state = q.state := by rw [← hx]; rfl
      unfold dutyBound dutyCap cappedDuties
      rcases hs with hs | hs <;> simp only [hst, hs]
    refine ⟨?_, ?_, fun hopen => ?_⟩
    · rw [hbound]; exact Nat.min_le_right _ _
    · rw [hbound]; exact Nat.min_le_right _ _
    · show 0 < min x.windowDuty (dutyCap x)
      simp only [cappedDuties, Bool.and_eq_true, Bool.not_eq_true', Bool.and_eq_false_iff, decide_eq_false_iff_not] at hopen
      obtain ⟨hv, hrun⟩ := hopen
      have hpos := hvalve hv
      omega

theorem steppedDuty_le (b : Bool) (q : Zone) : steppedDuty b q ≤ dutyCap q := by
  unfold steppedDuty; split
  · exact Nat.min_le_left _ _
  · exact Nat.zero_le _

/-- Steps 1 and 3 of a regulation period (R107, R113): a SOFT zone that becomes REGULATING has the higher bound. -/
theorem zoneDuty_regulated (e : Option Recipe) (h : zoneDuty q) : zoneDuty (regulated e q) := by
  obtain ⟨hd, hw, hv⟩ := h
  have hle : steppedDuty e.isSome { q with blank := q.blank - 1 } ≤ dutyCap q := steppedDuty_le _ _
  unfold regulated
  dsimp only
  split
  · next hs =>
    have hcap : dutyCap q = min q.softDuty q.dutyMax := by rw [dutyCap, hs]
    rw [dutyBound_soft hs] at hw
    rw [hcap] at hle
    split
    · exact ⟨hle.trans (Nat.min_le_right _ _), hw.trans (Nat.min_le_right _ _), hv⟩
    · exact ⟨hle.trans_eq (dutyBound_soft hs).symm, hw.trans_eq (dutyBound_soft hs).symm, hv⟩
  · next hs =>
    have hcap : dutyCap q = q.dutyMax := by rw [dutyCap, hs]
    rw [hcap] at hle
    exact ⟨hle.trans_eq (dutyBound_regulating hs).symm, hw, hv⟩
  all_goals exact ⟨hd, hw, hv⟩

/-- Step 4 (R117, R118): PURGE is entered and left with no duty. -/
theorem zoneDuty_purged (e : Option Recipe) (h : zoneDuty q) : zoneDuty (purged e q) := by
  unfold purged
  split
  · split
    · split
      · exact zoneDuty_zero rfl rfl rfl
      · exact h
    · exact h
  · next hs =>
    split
    · obtain ⟨-, hw, hv⟩ := zoneDuty_shut (by rw [dutyBound, hs]) h
      exact zoneDuty_zero rfl hw hv
    · exact h
  all_goals exact h

/-- A valve window starts with the duty of the last regulation step (R114). -/
theorem zoneDuty_windowStart (b : Bool) (h : zoneDuty q) : zoneDuty (windowStart b q) := by
  obtain ⟨hd, -, -⟩ := h
  unfold windowStart
  refine ⟨hd, ?_, fun hopen => of_decide_eq_true hopen⟩
  dsimp only
  split
  · exact hd
  · exact Nat.zero_le _

theorem zoneDuty_closed {b : Bool} (h : zoneDuty q) : zoneDuty { q with valve := q.valve && b } := by
  obtain ⟨hd, hw, hv⟩ := h
  exact ⟨hd, hw, fun hopen => hv (Bool.and_eq_true _ _ ▸ hopen).1⟩

end

/-! ### One zone of a state -/

section
variable {s : State}

theorem duty_onZone {f : Zone → Zone} (z : Fin 4) (hf : zoneDuty (s.zones.get z) → zoneDuty (f (s.zones.get z)))
    (h : Duty s) : Duty (s.onZone z f) := by
  intro y
  show zoneDuty ((s.zones.set z (f (s.zones.get z))).get y)
  rw [Four.get_set]
  split
  · exact hf (h z)
  · exact h y

theorem duty_of_zones {s t : State} (hz : t.zones = s.zones) (h : Duty s) : Duty t := fun z => by
  rw [hz]
  exact h z

/-- The law is one of the bodies: it reads no target, no blank and no settle count. -/
theorem duty_of_bodies {s t : State} (hb : zoneBodies t = zoneBodies s) (h : Duty s) : Duty t := by
  intro z
  have hz : zoneBody (t.zones.get z) = zoneBody (s.zones.get z) := by
    simpa [zoneBodies] using congrArg (fun q => Four.get q z) hb
  have hlaw : ∀ q : Zone, zoneDuty q ↔ zoneDuty (zoneBody q) := fun _ => Iff.rfl
  rw [hlaw, hz, ← hlaw]
  exact h z

theorem duty_settle {w : Work} (h : Duty w.1) : Duty (settle w) := duty_of_bodies (zoneBodies_settle w) h

theorem duty_ite {c : Prop} [Decidable c] {a b : State} (ha : Duty a) (hb : Duty b) : Duty (if c then a else b) := by
  split
  · exact ha
  · exact hb

theorem duty_foldl {f : State → Fin 4 → State} (hf : ∀ {u : State} z, Duty u → Duty (f u z)) (l : List (Fin 4))
    (h : Duty s) : Duty (l.foldl f s) := by
  induction l generalizing s with
  | nil => exact h
  | cons z l ih => exact ih (hf z h)

theorem duty_endTestOf (z : Fin 4) (h : Duty s) : Duty (endTestOf z s) := duty_ite h h

theorem duty_releaseReading (z : Fin 4) (h : Duty s) : Duty (releaseReading z s) := duty_onZone z id h

theorem duty_tripZone (z : Fin 4) (h : Duty s) : Duty (tripZone z s) :=
  duty_ite (duty_releaseReading z (duty_endTestOf z (duty_onZone z (fun _ => zoneDuty_stopped _) h))) h

theorem duty_probeFaultZone (z : Fin 4) (h : Duty s) : Duty (probeFaultZone z s) :=
  duty_ite (duty_onZone z (fun _ => zoneDuty_stopped _) h) h

theorem duty_releaseTrip (z : Fin 4) (h : Duty s) : Duty (releaseTrip z s) := by
  unfold releaseTrip; split
  · next hs => exact duty_onZone z (zoneDuty_released (by rw [dutyBound, hs])) h
  · exact h

theorem duty_releaseProbe (z : Fin 4) (h : Duty s) : Duty (releaseProbe z s) := by
  unfold releaseProbe; split
  · next hs => exact duty_onZone z (zoneDuty_released (by rw [dutyBound, hs])) h
  · exact h

theorem duty_disableZone (z : Fin 4) (h : Duty s) : Duty (disableZone z s) :=
  duty_ite h (duty_releaseReading z (duty_endTestOf z (duty_onZone z (fun _ => zoneDuty_stopped _) h)))

theorem duty_enableZone (z : Fin 4) (h : Duty s) : Duty (enableZone z s) := by
  unfold enableZone; split
  · next hs =>
    refine duty_onZone (f := fun q =>
      { q with state := if q.armed then .soft else .regulating, armed := false, soft := 0, hi := 0, purge := 0,
               settle := 0 }) z (fun hq => zoneDuty_enabled hs hq) h
  · exact h

theorem duty_applyZoneSet (pl : List Byte) (h : Duty s) : Duty (applyZoneSet pl s) := by
  have hset := duty_onZone (f := fun q => cappedDuties (zoneSettings pl q)) (fin4 (u8 pl 0)) (zoneDuty_capped pl) h
  have hoff := duty_ite (c := u8 pl 1 = 0) (duty_disableZone (fin4 (u8 pl 0)) hset) hset
  have harm := duty_ite (c := u8 pl 2 = 1) (duty_onZone (f := armZone) (fin4 (u8 pl 0)) id hoff) hoff
  exact duty_ite (duty_enableZone (fin4 (u8 pl 0)) harm) harm

theorem duty_takeReading (z : Fin 4) (n : Nat) (h : Duty s) : Duty (takeReading z n s) :=
  duty_ite h (duty_ite h (duty_onZone z id h))

theorem duty_monitorAct (z : Fin 4) (h : Duty s) : Duty (monitorAct z s) := by
  unfold monitorAct; split
  · exact h
  · exact h
  all_goals exact duty_tripZone z h

theorem duty_monitorSample (z : Fin 4) (h : Duty s) : Duty (monitorSample z s) := duty_ite (duty_monitorAct z h) h

theorem duty_regulateZone (z : Fin 4) (h : Duty s) : Duty (regulateZone z s) := by
  have hzone : Duty (s.onZone z fun _ =>
      settledCount (tunnelEntry s) (purged (tunnelEntry s) (regulated (tunnelEntry s) (s.zones.get z)))) :=
    duty_onZone z (fun hq => zoneDuty_purged _ (zoneDuty_regulated _ hq)) h
  exact duty_ite hzone hzone

theorem duty_testPeriod (z : Fin 4) (h : Duty s) : Duty (testPeriod z s) := by
  have hjudge : Duty (judgeTest z s) := by
    unfold judgeTest; split
    · exact duty_releaseReading z h
    · exact duty_ite (duty_probeFaultZone z h) (duty_releaseReading z h)
  exact duty_ite (duty_ite h hjudge) h

theorem duty_regulationPeriod (z : Fin 4) (h : Duty s) : Duty (regulationPeriod z s) := by
  have hperiod : Duty (monitorPeriod z (regulateZone z s)) := duty_regulateZone z h
  exact duty_testPeriod z (duty_ite (duty_releaseTrip z hperiod) hperiod)

theorem duty_clearZone (z : Fin 4) (h : Duty s) : Duty (clearZone s z) := by
  have htrip : ∀ {u : State}, Duty u → Duty (if clearsTrip s z then releaseTrip z u else u) := fun hu =>
    duty_ite (duty_releaseTrip z hu) hu
  exact duty_ite (duty_releaseProbe z (htrip h)) (htrip h)

/-! ### The zones' commands -/

end

theorem duty_serve {kind : Byte} {auth : Option Port} {lengthOk : Nat → Bool}
    {block : Port → List Byte → State → State × Answer}
    (hb : ∀ p pl {u : State}, Duty u → Duty (block p pl u).1) {f : Frame} {s : State} (h : Duty s) :
    Duty (serve kind auth lengthOk block f s) := by
  unfold serve
  dsimp only
  split
  · exact h
  · split
    · exact h
    · split
      · exact hb _ _ h
      · exact h

section
variable (p : Port) (pl : List Byte) {s : State}

theorem duty_zoneSetRequest (h : Duty s) : Duty (zoneSetRequest p pl s).1 := by
  unfold zoneSetRequest; split
  · exact h
  · exact duty_settle (duty_applyZoneSet pl h)

/-- A line reset closes every valve, whatever the zone's state (R122). -/
theorem duty_lineReset (h : Duty s) : Duty (lineReset p pl s).1 := by
  unfold lineReset; split
  · intro z
    show zoneDuty ((resetZones (lineResetState s)).zones.get z)
    rw [resetZones_eq]
    show zoneDuty (((lineResetState s).zones.map zoneReset).get z)
    rw [Four.get_map]
    exact zoneDuty_zero rfl rfl rfl
  · exact h

theorem duty_monitorSet (h : Duty s) : Duty (monitorSet p pl s).1 := by
  have hinterval : ∀ n, Duty (newInterval n s) := by
    intro n
    unfold newInterval; split
    · exact h
    · dsimp only; split
      · exact h
      · exact duty_ite (duty_releaseReading (s := endTest _) _ h) h
  unfold monitorSet; split
  · exact h
  · split
    · split
      · unfold monitorSetLine; split
        · exact h
        · exact hinterval _
      · exact h
    · split
      · unfold monitorSetZone; dsimp only; split <;> exact h
      · exact h

theorem duty_clearLine (h : Duty s) : Duty (clearLine s).1 :=
  duty_of_bodies (congrArg Kept.zones (kept_clearLine s)) h

theorem duty_faultClear (h : Duty s) : Duty (faultClear p pl s).1 := by
  have hzones : Duty (zonesInOrder.foldl clearZone s) := duty_foldl (fun z hu => duty_clearZone z hu) _ h
  have hsettled : Duty (settle (clearLine (zonesInOrder.foldl clearZone s))) := duty_settle (duty_clearLine hzones)
  unfold faultClear; split
  · exact h
  · exact hsettled

theorem duty_beginSearch (h : Duty s) : Duty (beginSearch s) := by
  unfold beginSearch; split
  · exact duty_onZone (f := fun q => { q with held := true }) _ id h
  · exact h

end

/-- Every command with all that follows from it keeps the valve duty law. -/
theorem duty_exec {c : Instr} {s t : State} (hs : Duty s) (h : exec c s = .next t) : Duty t := by
  by_cases hc : zoneCommand c = true
  · cases c
    case deviceReset =>
      obtain rfl := Host.Outcome.next.inj h
      exact duty_powerOn s.pins
    case lineReset f => obtain rfl := Host.Outcome.next.inj h; exact duty_serve duty_lineReset hs
    case zoneSet | zoneDisable | zoneArm | zoneEnable =>
      obtain rfl := Host.Outcome.next.inj h
      exact duty_serve duty_zoneSetRequest hs
    case monitorSetZone | monitorSetLine => obtain rfl := Host.Outcome.next.inj h; exact duty_serve duty_monitorSet hs
    case faultClear f => obtain rfl := Host.Outcome.next.inj h; exact duty_serve duty_faultClear hs
    case probeSample z n =>
      obtain rfl := Host.Outcome.next.inj h
      exact duty_settle (duty_monitorSample z (duty_takeReading z n (duty_onZone z id hs)))
    case regulationPeriod z =>
      obtain rfl := Host.Outcome.next.inj h
      exact duty_settle (duty_regulationPeriod z (duty_onZone z id hs))
    case valveWindowStart z =>
      obtain rfl := Host.Outcome.next.inj h
      exact duty_onZone z (zoneDuty_windowStart _) hs
    case valveClose z =>
      obtain rfl := Host.Outcome.next.inj h
      exact duty_onZone z zoneDuty_closed hs
    case probeCheckTimer =>
      obtain rfl := Host.Outcome.next.inj h
      exact duty_ite hs (duty_ite (duty_beginSearch hs) hs)
    all_goals cases hc
  · exact duty_of_bodies (zoneBodies_exec (Bool.eq_false_iff.mpr hc) h) hs

/-- A millisecond that passes reaches the zones' timers only; every other step is a command's. -/
theorem duty_step {s t : State} (hs : Duty s) (h : step s = .next t) : Duty t := by
  rcases step_cases h with ⟨-, rfl⟩ | ⟨-, c, -, hc⟩ | ⟨c, rest, -, hc⟩
  · intro z
    show zoneDuty ((s.zones.map tickZone).get z)
    rw [Four.get_map]
    exact hs z
  · exact duty_exec (s := s.nextFree) hs hc
  · exact duty_exec (s := s.withPending rest) hs hc

end Sys2Proof.Machine

namespace Sys2Proof.Proofs

open Sys2Proof.Machine Sys2Proof.Safety

/-- Settles O54: each change of a zone keeps the duties under the bound of its state; no other command reaches them. -/
theorem dutyKept : Obligations.DutyKept := fun _ _ => duty_step

end Sys2Proof.Proofs
end

section
/-! SUPPORT. A probe sample that trips a zone under TARGET while a bridge waits for the settled condition (R78, R120, R142,
R181). -/

namespace Sys2Proof.Proofs

open Sys2Proof.Machine Sys2Proof.Safety

/-- A REGULATING zone, and a monitor in TARGET that acts at the first sample above its limit. -/
def zoneAtLimit : Zone := { Zone.reset with state := .regulating, target := 1500 }
def targetMonitor : ZoneMonitor := { ZoneMonitor.reset with mode := .target, tLimit := 2000, deglitchSet := 1 }

/-- A RUNNING line with a stop pending and its former in BRIDGE.  The tunnel recipe uses no zone, so the zones count as
settled, which has not been reported yet: the next settling ends the bridge. -/
def bridgeAtLimit : State :=
  { State.reset with
    sup := { State.reset.sup with line := .running, stopPending := true }
    former := { State.reset.former with state := .bridge, bridgeTarget := some 0 }
    dose := { State.reset.dose with tunnelRecipe := some 0 }
    zones := State.reset.zones.set 0 zoneAtLimit
    monitor := { State.reset.monitor with zones := State.reset.monitor.zones.set 0 targetMonitor } }

/-- The bridge ends, the pending stop takes the line to STOPPING, and the zone just tripped under TARGET is handed the
target of STOPPING, which its monitor notes (R142). -/
theorem targetChanged_of_bridgeAtLimit {t : State} (h : exec (.probeSample 0 2200) bridgeAtLimit = .next t) :
    (t.monitor.zones.get 0).targetChanged = true := by
  obtain rfl := Host.Outcome.next.inj h
  decide

/-- Refutes O39: its TARGET clause has the target change cleared unless the line is WARMING.  The settling that follows the
trip may also end a bridge, and with a stop pending the line's new state hands the zone a target in the same step.  What the
clause lacks is that the former is not in BRIDGE. -/
theorem not_probeSample : ¬ Obligations.ProbeSample := by
  unfold Obligations.ProbeSample
  intro h
  obtain ⟨t, ht, -, -, -, -, -, -, -, hacts, -⟩ := h 0 2200 bridgeAtLimit
  obtain ⟨-, -, -, htarget⟩ := hacts ⟨⟨by decide, .inr (.inl rfl), by decide, by decide⟩, by decide, by decide⟩
  obtain ⟨-, hcleared⟩ := htarget rfl
  have hchanged := targetChanged_of_bridgeAtLimit ht
  rw [hcleared (by decide)] at hchanged
  cases hchanged

end Sys2Proof.Proofs
end

section
/-! SUPPORT. The expiries that no cascade follows: the valve window (R114), the probe check (R144), the hood delay (R177,
R180). -/

namespace Sys2Proof.Machine

open Sys2Proof.Safety

theorem enabledRunning_iff (st : ZoneState) : enabledRunning st = true ↔ atWork st := by
  cases st <;> simp [enabledRunning, atWork]

/-! ### The probe check -/

/-- The zones from the cycle position on, looked at in their order. -/
theorem nextTest_eq (s : State) :
    nextTest s = ([0, 1, 2, 3].map fun i : Fin 4 => s.monitor.position + i).find? (testable s) := by
  simp [nextTest]

theorem nextTest_none {s : State} (h : ∀ z, testable s z = false) : nextTest s = none := by
  rw [nextTest_eq, List.find?_eq_none]
  intro z _
  rw [h z]
  exact Bool.false_ne_true

/-- The zone `i` places on from the cycle position is the first that may be tested (R144). -/
theorem nextTest_some {s : State} {i : Fin 4} (h : testable s (s.monitor.position + i) = true)
    (hb : ∀ j < i, testable s (s.monitor.position + j) = false) : nextTest s = some (s.monitor.position + i) := by
  rw [nextTest_eq, List.find?_map]
  suffices hi : [0, 1, 2, 3].find? (testable s ∘ (s.monitor.position + ·)) = some i by rw [hi]; rfl
  match i with
  | 0 => simp only [List.find?_cons, Function.comp, h]
  | 1 => simp only [List.find?_cons, Function.comp, h, hb 0 (by decide)]
  | 2 => simp only [List.find?_cons, Function.comp, h, hb 0 (by decide), hb 1 (by decide)]
  | 3 => simp only [List.find?_cons, Function.comp, h, hb 0 (by decide), hb 1 (by decide), hb 2 (by decide)]

theorem testable_iff (s : State) (z : Fin 4) :
    testable s z = true ↔ atWork (s.zones.get z).state ∧ (s.monitor.zones.get z).probeFlagged = false := by
  rw [testable, Bool.and_eq_true, enabledRunning_iff, Bool.not_eq_true']

theorem beginSearch_still {s : State} (h : s.monitor.test ≠ none ∨ nextTest s = none) : beginSearch s = s := by
  unfold beginSearch; split
  · next z ht hn =>
    rcases h with h | h
    · exact absurd ht h
    · exact absurd (h.symm.trans hn) nofun
  · rfl

theorem beginSearch_begins {s : State} {z : Fin 4} (ht : s.monitor.test = none) (hn : nextTest s = some z) :
    beginSearch s = (beginTest z s).onMonitor fun m => { m with position := z + 1 } := by
  unfold beginSearch; rw [ht, hn]

/-! ### The hood commanded up -/

/-- The hood state is that of its switch; on leaving DOWN the speed drops and the hood timer runs (R177, R185). -/
theorem commandHood_false (s : State) :
    (commandHood false s).sup.hoodDown = false ∧ (commandHood false s).sup.line = s.sup.line ∧
      (commandHood false s).sup.hoodDelayTimer = s.sup.hoodDelayTimer ∧
      (commandHood false s).sup.hood = (if s.tracker.hoodUp.level then .up else .raising) ∧
      (s.sup.hood = .down → (commandHood false s).sup = hoodChanged (if s.tracker.hoodUp.level then .up else .raising)
        { s.sup with hoodDown := false }) := by
  have hleaves : derivedHood false s.tracker ≠ .down := by
    unfold derivedHood
    rw [if_neg Bool.false_ne_true]
    split <;> exact nofun
  show _ ∧ _ ∧ _ ∧ _ = derivedHood false s.tracker ∧ (_ → _ = hoodChanged (derivedHood false s.tracker) _)
  by_cases hsame : derivedHood false s.tracker = s.sup.hood
  · have hstays : commandHood false s = s.onSup fun v => { v with hoodDown := false } := if_pos hsame
    rw [hstays]
    exact ⟨rfl, rfl, rfl, hsame.symm, fun hd => absurd (hsame.trans hd) hleaves⟩
  · have hmoves : commandHood false s = (s.onSup fun v => { v with hoodDown := false }).onSup
        (hoodChanged (derivedHood false s.tracker)) := if_neg hsame
    rw [hmoves]
    exact ⟨rfl, rfl, rfl, rfl, fun _ => rfl⟩

end Sys2Proof.Machine

namespace Sys2Proof.Proofs

open Sys2Proof.Machine Sys2Proof.Safety

/-! ### The statement's four parts -/

theorem valveWindow (z : Fin 4) (s : State) :
    let q := s.zones.get z
    let works : Prop := s.dose.tunnelRecipe ≠ none ∧ (q.state = .soft ∨ q.state = .regulating)
    (works →
      exec (.valveWindowStart z) s =
        .next { s with
          zones := s.zones.set z { q with windowDuty := q.duty, valve := decide (0 < q.duty), windowTimer := 1000 } }) ∧
    (¬works →
      exec (.valveWindowStart z) s =
        .next { s with zones := s.zones.set z { q with windowDuty := 0, valve := false, windowTimer := 1000 } }) ∧
    (q.windowDuty = 1000 → exec (.valveClose z) s = .next s) ∧
    (q.windowDuty ≠ 1000 →
      exec (.valveClose z) s = .next { s with zones := s.zones.set z { q with valve := false } }) := by
  intro q works
  have hworks : (s.dose.tunnelRecipe.isSome && (decide (q.state = .soft) || decide (q.state = .regulating))) = true ↔
      works := by simp [works, Option.isSome_iff_ne_none]
  have hstart : exec (.valveWindowStart z) s =
      .next { s with zones := s.zones.set z (windowStart s.dose.tunnelRecipe.isSome q) } := rfl
  have hclose : exec (.valveClose z) s =
      .next { s with zones := s.zones.set z { q with valve := q.valve && decide (q.windowDuty = 1000) } } := rfl
  rw [hstart, hclose]
  refine ⟨fun h => ?_, fun h => ?_, fun h => ?_, fun h => ?_⟩
  · rw [windowStart, if_pos (hworks.mpr h)]
  · rw [windowStart, if_neg (mt hworks.mp h)]
    rfl
  · rw [decide_eq_true h, Bool.and_true]
    exact congrArg (fun zs => Host.Outcome.next { s with zones := zs }) (Four.set_get s.zones z)
  · rw [decide_eq_false h, Bool.and_false]

theorem probeCheck (s : State) :
    let m := s.monitor
    let n := m.intervalCount + 1
    let free (z : Fin 4) : Prop := atWork (s.zones.get z).state ∧ (m.zones.get z).probeFlagged = false
    let at' (count : Nat) : Monitor := { m with checkTimer := 1000, intervalCount := count }
    (m.interval = 0 → exec .probeCheckTimer s = .next { s with monitor := { m with checkTimer := 1000 } }) ∧
    (n < m.interval → exec .probeCheckTimer s = .next { s with monitor := at' n }) ∧
    (m.interval ≠ 0 → m.interval ≤ n → (∀ z, ¬free z) ∨ m.test ≠ none →
      exec .probeCheckTimer s = .next { s with monitor := at' 0 }) ∧
    (∀ i : Fin 4, m.interval ≠ 0 → m.interval ≤ n → m.test = none → free (m.position + i) →
      (∀ j, j < i → ¬free (m.position + j)) →
      let z := m.position + i
      exec .probeCheckTimer s =
        .next { s with
          monitor := { at' 0 with test := some z, testPeriods := 0, testLatest := none, position := z + 1 },
          zones := s.zones.set z { s.zones.get z with held := true } }) := by
  intro m n free at'
  have hexec : exec .probeCheckTimer s = .next (if m.interval = 0 then { s with monitor := { m with checkTimer := 1000 } }
      else if m.interval ≤ n then beginSearch { s with monitor := at' 0 } else { s with monitor := at' n }) := rfl
  have hfree : ∀ z, testable { s with monitor := at' 0 } z = true ↔ free z := testable_iff { s with monitor := at' 0 }
  have hbusy : ∀ z, ¬free z → testable { s with monitor := at' 0 } z = false := fun z h =>
    Bool.eq_false_iff.mpr (mt (hfree z).mp h)
  rw [hexec]
  refine ⟨fun h => ?idle, fun h => ?counts, fun h0 hn h => ?nobody, fun i h0 hn ht hi hb => ?begins⟩
  case idle => rw [if_pos h]
  case counts => rw [if_neg (by omega), if_neg (by omega)]
  case nobody =>
    rw [if_neg h0, if_pos hn, beginSearch_still]
    rcases h with h | h
    · exact .inr (nextTest_none fun z => hbusy z (h z))
    · exact .inl h
  case begins =>
    have hnext := nextTest_some (s := { s with monitor := at' 0 }) ((hfree _).mpr hi) fun j hj => hbusy _ (hb j hj)
    rw [if_neg h0, if_pos hn, beginSearch_begins (s := { s with monitor := at' 0 }) ht hnext]
    rfl

theorem hoodDelay (s : State) (h : s.sup.hoodDelayTimer ≠ none) :
    ∃ t, exec .hoodDelayExpiry s = .next t ∧ t.sup.hoodDown = false ∧ t.sup.hoodDelayTimer = none ∧
      t.sup.line = s.sup.line ∧ t.sup.hood = (if s.tracker.hoodUp.level then .up else .raising) ∧
      (s.sup.hood = .down → t.sup.vRef = 0 ∧ t.sup.speedOut = 0) ∧
      (s.sup.hood = .down → s.tracker.hoodUp.level = false →
        t.sup.hoodTimer = some (s.sup.set.hoodTimeout * 1000)) := by
  have hrun : running s.sup.hoodDelayTimer = true := Option.isSome_iff_ne_none.mpr h
  have hexec : exec .hoodDelayExpiry s =
      .next (settle (commandHood false (s.onSup fun v => { v with hoodDelayTimer := none }), [])) :=
    congrArg Host.Outcome.next (if_pos hrun)
  obtain ⟨hdown, hline, hdelay, hhood, hleaves⟩ := commandHood_false (s.onSup fun v => { v with hoodDelayTimer := none })
  rw [settle_quiet] at hexec
  generalize commandHood false (s.onSup fun v => { v with hoodDelayTimer := none }) = u at *
  obtain ⟨f, -, hflag⟩ := flagJoints_eq u
  have hsup : (flagJoints u).sup = u.sup := by rw [hflag]; rfl
  refine ⟨_, hexec, by rw [hsup]; exact hdown, by rw [hsup]; exact hdelay, by rw [hsup]; exact hline,
    by rw [hsup]; exact hhood, fun hd => ?speed, fun hd hl => ?timer⟩
  case speed =>
    rw [hsup, hleaves hd]
    exact ⟨if_pos hd, if_pos hd⟩
  case timer =>
    rw [hsup, hleaves hd]
    show hoodTimerFor s.sup.set.hoodTimeout (if s.tracker.hoodUp.level = true then .up else .raising) = _
    rw [hl]
    rfl

/-- Settles O49: each expiry's own effect, which no signal follows. -/
theorem timerExpiries : Obligations.TimerExpiries :=
  ⟨valveWindow, probeCheck, hoodDelay, fun _ => ⟨rfl, fun h =>
    congrArg Host.Outcome.next (if_pos (Option.isSome_iff_ne_none.mpr h))⟩⟩

end Sys2Proof.Proofs
end

section
/-! SUPPORT. A state at one zone: that zone, the monitor and the router apart from the rest, and what the zones' and the
monitor's own operations make of them (R104 to R106, R111, R119, R139, R142). -/

namespace Sys2Proof.Machine

open Sys2Proof.Safety

/-- What a zone's body holds, two zones of the same body have in common. -/
theorem of_zoneBody {α : Type} {a b : Zone} (g : Zone → α) (hg : ∀ q, g (zoneBody q) = g q)
    (h : zoneBody a = zoneBody b) : g a = g b := (hg a).symm.trans ((congrArg g h).trans (hg b))

/-- The same of two monitors. -/
theorem of_monitorBody {α : Type} {a b : ZoneMonitor} (g : ZoneMonitor → α) (hg : ∀ k, g (monitorBody k) = g k)
    (h : monitorBody a = monitorBody b) : g a = g b := (hg a).symm.trans ((congrArg g h).trans (hg b))

/-- `s` with zone `z`, the monitor and the router given. -/
def placed (z : Fin 4) (q : Zone) (m : Monitor) (r : Three RouterPort) (s : State) : State :=
  { s with zones := s.zones.set z q, monitor := m, router := r }

/-- A monitor with one zone's record changed. -/
def monitorAt (z : Fin 4) (f : ZoneMonitor → ZoneMonitor) (m : Monitor) : Monitor :=
  { m with zones := m.zones.set z (f (m.zones.get z)) }

/-- A monitor whose test has ended (R111). -/
def testEnded (m : Monitor) : Monitor := { m with test := none, testPeriods := 0, testLatest := none }

/-- A test of this zone ends; one of another goes on (R111). -/
def testEndedOf (z : Fin 4) (m : Monitor) : Monitor := if m.test = some z then testEnded m else m

theorem monitorAt_same (z : Fin 4) (f : ZoneMonitor → ZoneMonitor) (m : Monitor) :
    (monitorAt z f m).zones.get z = f (m.zones.get z) := Four.get_set_same _ _ _

theorem monitorAt_other {z y : Fin 4} (h : y ≠ z) (f : ZoneMonitor → ZoneMonitor) (m : Monitor) :
    (monitorAt z f m).zones.get y = m.zones.get y := Four.get_set_ne _ h _

@[simp] theorem testEndedOf_zones (z : Fin 4) (m : Monitor) : (testEndedOf z m).zones = m.zones := by
  unfold testEndedOf; split <;> rfl

theorem testEndedOf_test (z : Fin 4) (m : Monitor) : (testEndedOf z m).test ≠ some z := by
  unfold testEndedOf; split
  · exact nofun
  · assumption

section
variable (z : Fin 4) (q : Zone) (m : Monitor) (r : Three RouterPort) (s : State)

theorem placed_self : placed z (s.zones.get z) s.monitor s.router s = s := by
  unfold placed; rw [Four.set_get]

@[simp] theorem placed_zone : (placed z q m r s).zones.get z = q := Four.get_set_same _ _ _
@[simp] theorem placed_monitor : (placed z q m r s).monitor = m := rfl
@[simp] theorem placed_router : (placed z q m r s).router = r := rfl

theorem placed_other {y : Fin 4} (h : y ≠ z) : (placed z q m r s).zones.get y = s.zones.get y := Four.get_set_ne _ h _

theorem placed_onZone (f : Zone → Zone) : (placed z q m r s).onZone z f = placed z (f q) m r s := by
  simp [placed, State.onZone]

theorem placed_onMonitor (f : Monitor → Monitor) : (placed z q m r s).onMonitor f = placed z q (f m) r s := rfl

theorem placed_onZoneMonitor (f : ZoneMonitor → ZoneMonitor) :
    (placed z q m r s).onZoneMonitor z f = placed z q (monitorAt z f m) r s := rfl

theorem placed_raise (k : EventKind) (d : List Byte) :
    raise k d (placed z q m r s) = placed z q m (r.map (notePort k d)) s := rfl

theorem endTestOf_placed : endTestOf z (placed z q m r s) = placed z q (testEndedOf z m) r s := by
  unfold endTestOf testEndedOf
  rw [placed_monitor]
  split <;> rfl

theorem releaseReading_placed : releaseReading z (placed z q m r s) = placed z { q with held := false } m r s :=
  placed_onZone _ _ _ _ _ _

/-! ### ZONE_SET (R104 to R106) -/

/-- A disabled zone (R105). -/
def disabledZone (q : Zone) : Zone := { stoppedZone .off q with held := false }

/-- A zone enabled from OFF (R105). -/
def enabledZone (q : Zone) : Zone :=
  { q with state := if q.armed then .soft else .regulating, armed := false, soft := 0, hi := 0, purge := 0, settle := 0 }

theorem disableZone_placed : disableZone z (placed z q m r s) =
    if q.state = .off then placed z q m r s
    else placed z (disabledZone q) (monitorAt z holdEnded (testEndedOf z m)) r s := by
  unfold disableZone
  rw [placed_zone, placed_onZone, endTestOf_placed, releaseReading_placed, placed_onZoneMonitor]
  rfl

theorem enableZone_placed : enableZone z (placed z q m r s) =
    if q.state = .off then placed z (enabledZone q) (monitorAt z (fun k => { k with blank := k.blankSet }) m) r s
    else placed z q m r s := by
  unfold enableZone
  rw [placed_zone, placed_onZone, placed_onZoneMonitor]
  rfl

end

theorem dutyCap_eq (q : Zone) : dutyCap q = if q.state = .soft then min q.softDuty q.dutyMax else q.dutyMax := by
  unfold dutyCap
  cases q.state <;> rfl

/-- The settings and the duties under them (R104 step 1). -/
def cappedZone (pl : List Byte) (q : Zone) : Zone := cappedDuties (zoneSettings pl q)

/-- Step 2: the disable of an enabled zone (R105). -/
def switchedOff (pl : List Byte) (q : Zone) : Zone :=
  if u8 pl 1 = 0 ∧ q.state ≠ .off then disabledZone (cappedZone pl q) else cappedZone pl q

/-- Step 3: arming (R106). -/
def armedBy (pl : List Byte) (q : Zone) : Zone :=
  if u8 pl 2 = 1 then armZone (switchedOff pl q) else switchedOff pl q

/-- `q`, armed when it was or when it is OFF and asked to be. -/
def armedWhen (p : Prop) [Decidable p] (q : Zone) : Zone :=
  { q with armed := q.armed || (decide p && decide (q.state = .off)) }

theorem armedBy_eq (pl : List Byte) (q : Zone) : armedBy pl q = armedWhen (u8 pl 2 = 1) (switchedOff pl q) := by
  unfold armedBy armedWhen
  by_cases h : u8 pl 2 = 1
  · rw [if_pos h, decide_eq_true h, Bool.true_and]
    rfl
  · rw [if_neg h, decide_eq_false h, Bool.false_and, Bool.or_false]

/-- A cap that cuts a duty shuts the valve as the cut duty does. -/
theorem valveShut_eq (w cap left : Nat) :
    (decide (min w cap < w) && decide (min w cap ≤ left)) = (decide (cap < w) && decide (cap ≤ left)) := by
  rw [← Bool.decide_and, ← Bool.decide_and]
  exact decide_eq_decide.mpr (by omega)

/-- The zone after the four steps of a taken ZONE_SET (R104). -/
def setZone (pl : List Byte) (q : Zone) : Zone :=
  if u8 pl 1 = 1 ∧ q.state = .off then enabledZone (armedBy pl q) else armedBy pl q

theorem cappedZone_state (pl : List Byte) (q : Zone) : (cappedZone pl q).state = q.state := rfl

theorem armedBy_state {pl : List Byte} {q : Zone} (h : u8 pl 1 = 1) : (armedBy pl q).state = q.state := by
  have hon : switchedOff pl q = cappedZone pl q := if_neg fun hn => by omega
  unfold armedBy
  rw [hon]
  split <;> rfl

/-- A taken ZONE_SET reaches its zone and the monitor; a disable ends a test and the trip hold. -/
theorem applyZoneSet_eq {pl : List Byte} {z : Fin 4} (hz : fin4 (u8 pl 0) = z) (s : State) :
    ∃ m, applyZoneSet pl s = placed z (setZone pl (s.zones.get z)) m s.router s ∧
      (u8 pl 1 = 0 → (s.zones.get z).state ≠ .off → m.test ≠ some z ∧ (m.zones.get z).hold = .none) := by
  generalize hq : s.zones.get z = q
  have hself : s = placed z q s.monitor s.router s := by rw [← hq, placed_self]
  have hcap : s.onZone z (fun q => cappedDuties (zoneSettings pl q)) = placed z (cappedZone pl q) s.monitor s.router s := by
    conv_lhs => rw [hself]
    exact placed_onZone _ _ _ _ _ _
  have hoff : ∃ m, (if u8 pl 1 = 0 then disableZone z (placed z (cappedZone pl q) s.monitor s.router s)
      else placed z (cappedZone pl q) s.monitor s.router s) = placed z (switchedOff pl q) m s.router s ∧
      (u8 pl 1 = 0 → q.state ≠ .off → m.test ≠ some z ∧ (m.zones.get z).hold = .none) := by
    rw [disableZone_placed, cappedZone_state]
    unfold switchedOff
    by_cases h0 : u8 pl 1 = 0
    · by_cases hs : q.state = .off
      · rw [if_pos h0, if_pos hs, if_neg fun hn => hn.2 hs]
        exact ⟨_, rfl, fun _ hn => absurd hs hn⟩
      · rw [if_pos h0, if_neg hs, if_pos ⟨h0, hs⟩]
        refine ⟨_, rfl, fun _ _ => ⟨testEndedOf_test z s.monitor, ?_⟩⟩
        rw [monitorAt_same]
        rfl
    · rw [if_neg h0, if_neg fun hn => h0 hn.1]
      exact ⟨_, rfl, fun hn => absurd hn h0⟩
  obtain ⟨m, hoff, hm⟩ := hoff
  have harm : (if u8 pl 2 = 1 then (placed z (switchedOff pl q) m s.router s).onZone z armZone
      else placed z (switchedOff pl q) m s.router s) = placed z (armedBy pl q) m s.router s := by
    rw [placed_onZone, armedBy]
    split <;> rfl
  unfold applyZoneSet
  dsimp only
  rw [hz, hcap, hoff, harm, enableZone_placed, setZone]
  by_cases h1 : u8 pl 1 = 1
  · rw [if_pos h1, armedBy_state h1]
    by_cases hs : q.state = .off
    · rw [if_pos hs, if_pos ⟨h1, hs⟩]
      exact ⟨_, rfl, fun h0 => by omega⟩
    · rw [if_neg hs, if_neg fun hn => hs hn.2]
      exact ⟨_, rfl, hm⟩
  · rw [if_neg h1, if_neg fun hn => h1 hn.1]
    exact ⟨_, rfl, hm⟩

/-! ### The request -/

/-- The ranges of ZONE_SET, its last fields but one being bytes (R104). -/
theorem zoneRequestOk_iff {pl : List Byte} (h : pl.length = 11) :
    zoneRequestOk pl = true ↔ field pl 0 1 ≤ 3 ∧ field pl 1 1 ≤ 2 ∧ field pl 2 1 ≤ 1 ∧ field pl 4 2 ≤ 1000 ∧
      field pl 6 2 ≤ 1000 ∧ 1 ≤ field pl 8 1 ∧ (1 ≤ field pl 9 1 ∧ field pl 9 1 ≤ 60) ∧
      (1 ≤ field pl 10 1 ∧ field pl 10 1 ≤ 120) := by
  have hbyte : u8 pl 8 ≤ 255 := by
    show (pl.getD 8 0).toNat ≤ 255
    omega
  rw [field_u8 pl 0 (by omega), field_u8 pl 1 (by omega), field_u8 pl 2 (by omega), field_u16 pl 4 (by omega),
    field_u16 pl 6 (by omega), field_u8 pl 8 (by omega), field_u8 pl 9 (by omega), field_u8 pl 10 (by omega)]
  simp only [zoneRequestOk, Bool.and_eq_true, decide_eq_true_eq, within_eq_true, hbyte, and_true, and_assoc]

theorem zoneSetRequest_badValue {p : Port} {pl : List Byte} {s : State} (h : ¬zoneRequestOk pl = true) :
    zoneSetRequest p pl s = refuse .badValue s := if_pos (Bool.eq_false_iff.mpr h)

/-- A taken ZONE_SET and its settling: the zone's own work, the other zones, the monitor, and the answer. -/
theorem zoneSetRequest_taken {p : Port} {pl : List Byte} {z : Fin 4} (h : zoneRequestOk pl = true)
    (hz : u8 pl 0 = z.val) (s : State) :
    ∃ t, zoneSetRequest p pl s = okWith
        [BitVec.ofNat 8 z.val, BitVec.ofNat 8 (zoneStateCode (setZone pl (s.zones.get z)).state),
          if (setZone pl (s.zones.get z)).armed then 1 else 0] t ∧
      t.ports = s.ports ∧ zoneWork (t.zones.get z) = zoneWork (setZone pl (s.zones.get z)) ∧
      (∀ y, y ≠ z → zoneWork (t.zones.get y) = zoneWork (s.zones.get y)) ∧
      (u8 pl 1 = 0 → (s.zones.get z).state ≠ .off →
        t.monitor.test ≠ some z ∧ (t.monitor.zones.get z).hold = .none) := by
  obtain ⟨m, happly, hm⟩ := applyZoneSet_eq (fin4_eq hz) s
  generalize setZone pl (s.zones.get z) = q at happly ⊢
  have hzone : ∀ y, zoneBody ((settle (applyZoneSet pl s, [.settled false])).zones.get y) =
      zoneBody ((placed z q m s.router s).zones.get y) := fun y => by rw [settle_zoneBody, happly]
  have hports : (settle (applyZoneSet pl s, [.settled false])).ports = s.ports := by rw [settle_ports, happly]; rfl
  have htest : (settle (applyZoneSet pl s, [.settled false])).monitor.test = m.test := by rw [settle_test, happly]; rfl
  have hhold : ((settle (applyZoneSet pl s, [.settled false])).monitor.zones.get z).hold = (m.zones.get z).hold := by
    have hbody := settle_monitorBody (applyZoneSet pl s, [.settled false]) z
    rw [happly] at hbody ⊢
    exact of_monitorBody ZoneMonitor.hold (fun _ => rfl) hbody
  have htaken : zoneSetRequest p pl s = _ := if_neg (by rw [h]; decide)
  rw [htaken, fin4_eq hz]
  dsimp only
  generalize settle (applyZoneSet pl s, [.settled false]) = t at *
  have hz' := hzone z
  rw [placed_zone] at hz'
  have hstate : (t.zones.get z).state = q.state := of_zoneBody Zone.state (fun _ => rfl) hz'
  have harmed : (t.zones.get z).armed = q.armed := of_zoneBody Zone.armed (fun _ => rfl) hz'
  refine ⟨t, ?_, hports, hz', fun y hy => ?_, fun h0 hs => ?_⟩
  · rw [hz, hstate, harmed, byte1_eq, byte1_eq, byte1_eq]
    cases q.armed <;> rfl
  · have hy' := hzone y
    rwa [placed_other _ _ _ _ _ hy] at hy'
  · rw [htest, hhold]
    exact hm h0 hs

/-- All four rows of ZONE_SET do what their payload says. -/
theorem exec_zoneSetRow {c : Instr} {f : Frame} (s : State) (hf : f.port = .line) (hl : f.payload.length = 11)
    (h : c ∈ [Instr.zoneSet f, .zoneDisable f, .zoneArm f, .zoneEnable f]) :
    exec c s = .next (answeredBy 0x15 zoneSetRequest f s) := by
  have h60 : f.payload.length ≤ 60 := hl ▸ by decide
  have h11 : exactly 11 f.payload.length = true := by rw [hl]; rfl
  simp only [List.mem_cons, List.not_mem_nil, or_false] at h
  rcases h with rfl | rfl | rfl | rfl
  · exact exec_zoneSet s h60 hf h11
  · exact exec_zoneDisable s h60 hf h11
  · exact exec_zoneArm s h60 hf h11
  · exact exec_zoneEnable s h60 hf h11

end Sys2Proof.Machine

namespace Sys2Proof.Proofs

open Sys2Proof.Machine Sys2Proof.Safety

/-- Settles O36: the four steps at the zone, which the settling that follows changes in nothing that is compared. -/
theorem zoneSet : Obligations.ZoneSet := by
  intro pl extra c s hlen f enable arm ok hc
  have hexec := exec_zoneSetRow (f := f) s rfl hlen hc
  have hok : zoneRequestOk pl = true ↔ ok := zoneRequestOk_iff hlen
  have henable : u8 pl 1 = enable := (field_u8 pl 1 (by omega)).symm
  have harm : u8 pl 2 = arm := (field_u8 pl 2 (by omega)).symm
  refine ⟨?badValue, ?taken⟩
  case badValue =>
    intro hbad
    exact hexec.trans (congrArg _ (answeredBy_refused (zoneSetRequest_badValue (mt hok.mp hbad))))
  case taken =>
    intro z hin hz q cap capped afterDisable armed final
    have hcapped : cappedZone pl q = capped := by
      unfold cappedZone cappedDuties
      rw [dutyCap_eq]
      simp only [zoneSettings, ← field_u8 pl 3 (by omega), ← field_u16 pl 4 (by omega), ← field_u16 pl 6 (by omega),
        ← field_u8 pl 8 (by omega), ← field_u8 pl 9 (by omega), ← field_u8 pl 10 (by omega)]
      exact congrArg (fun v => ({ capped with valve := q.valve && !v } : Zone)) (valveShut_eq _ _ _)
    have hoff : zoneWork (switchedOff pl q) = zoneWork afterDisable := by
      rw [switchedOff, henable, hcapped]
      by_cases h : enable = 0 ∧ q.state ≠ .off
      · rw [if_pos h, show afterDisable = _ from if_pos h]
        rfl
      · rw [if_neg h, show afterDisable = _ from if_neg h]
    have harmed : zoneWork (armedBy pl q) = zoneWork { afterDisable with armed := armed } := by
      calc zoneWork (armedBy pl q)
        _ = zoneWork (armedWhen (u8 pl 2 = 1) (zoneWork (switchedOff pl q))) := by rw [armedBy_eq]; rfl
        _ = zoneWork { afterDisable with armed := armed } := by rw [harm, hoff]; rfl
    have hfinal : zoneWork (setZone pl q) = zoneWork final := by
      rw [setZone, henable]
      by_cases h : enable = 1 ∧ q.state = .off
      · rw [if_pos h, show final = _ from if_pos h]
        calc zoneWork (enabledZone (armedBy pl q))
          _ = zoneWork (enabledZone (zoneWork (armedBy pl q))) := rfl
          _ = zoneWork (enabledZone (zoneWork { afterDisable with armed := armed })) := by rw [harmed]
          _ = zoneWork _ := rfl
      · rw [if_neg h, show final = _ from if_neg h]
        exact harmed
    obtain ⟨t, htaken, hports, hzone, hothers, hmonitor⟩ := zoneSetRequest_taken (p := f.port) (hok.mpr hin)
      ((field_u8 pl 0 (by omega)).symm.trans hz) (received 0x15 f s)
    have hstate : (setZone pl q).state = final.state := of_zoneBody Zone.state (fun _ => rfl) hfinal
    have hon : (setZone pl q).armed = final.armed := of_zoneBody Zone.armed (fun _ => rfl) hfinal
    refine ⟨_, hexec.trans (congrArg _ (answeredBy_eq htaken hports)), ?_, hzone.trans hfinal, hothers, henable ▸ hmonitor⟩
    show _ = (answered 0x15 f .ok [BitVec.ofNat 8 z.val, BitVec.ofNat 8 (zoneStateCode final.state),
      if final.armed then 1 else 0] s).ports
    rw [← hstate, ← hon]
    rfl

end Sys2Proof.Proofs
end

section
/-! SUPPORT. RECIPE_SET, TUNNEL_SET and DOSE_SAMPLE: the settings their payloads spell with their ranges, the blocks'
answers, and a sample cell by cell (R125, R126, R131). -/

namespace Sys2Proof.Machine

open Sys2Proof.Safety

/-- A field of one byte is a byte. -/
theorem u8_le (pl : List Byte) (i : Nat) : u8 pl i ≤ 255 := by
  show (pl.getD i 0).toNat ≤ 255
  omega

/-- A flag as a byte. -/
theorem flagByte_eq (b : Bool) : byte1 (bit b 1) = [if b then 1 else 0] := by cases b <;> rfl

/-- The answer around a change of the Dose Tracker. -/
theorem answeredBy_dose {kind : Byte} {block : Port → List Byte → State → State × Answer} {f : Frame} {s : State}
    {g : Dose → Dose} {pl : List Byte}
    (h : block f.port f.payload (received kind f s) = okWith pl ((received kind f s).onDose g)) :
    answeredBy kind block f s = answered kind f .ok pl { s with dose := g s.dose } :=
  answeredBy_eq (t := (received kind f s).onDose g) (a := ⟨.ok, pl⟩) h rfl

/-! ### TUNNEL_SET (R126) -/

theorem tunnelSettingsOf_fields {pl : List Byte} (h : pl.length = 10) :
    tunnelSettingsOf pl =
      ⟨field pl 0 1, field pl 1 2, field pl 3 4, field pl 7 1, field pl 8 1, field pl 9 1⟩ := by
  rw [tunnelSettingsOf, field_u8 pl 0 (by omega), field_u16 pl 1 (by omega), field_u32 pl 3 (by omega),
    field_u8 pl 7 (by omega), field_u8 pl 8 (by omega), field_u8 pl 9 (by omega)]

/-- The ranges of TUNNEL_SET, and the tunnel ending before the knife (R126). -/
theorem tunnelSettingsOk_iff (c : TunnelSettings) (lK : Nat) :
    tunnelSettingsOk c lK = true ↔
      (16 ≤ c.n ∧ c.n ≤ 128) ∧ (50 ≤ c.pitch ∧ c.pitch ≤ 20000) ∧ c.lTe ≤ 16777215 ∧
        c.b1 ≤ c.b2 ∧ c.b2 ≤ c.b3 ∧ c.b3 ≤ c.n ∧ c.lTe + (c.n + 1) * c.pitch ≤ lK := by
  simp only [tunnelSettingsOk, Bool.and_eq_true, within_eq_true, decide_eq_true_eq, Nat.zero_le, true_and, and_assoc]
  exact Iff.rfl

/-- The Dose Tracker under new tunnel settings: every cell empty, the next shift a pitch ahead (R126). -/
def tunnelTaken (c : TunnelSettings) (pOut : Pos) (d : Dose) : Dose :=
  { d with tunnel := c, cells := List.replicate c.n none, nextShift := pOut + BitVec.ofNat 32 c.pitch }

section
variable {p : Port} {pl : List Byte} {s : State}

theorem tunnelSet_badValue (h : ¬tunnelSettingsOk (tunnelSettingsOf pl) s.roll.geo.lK = true) :
    tunnelSet p pl s = refuse .badValue s := if_pos (Bool.eq_false_iff.mpr h)

theorem tunnelSet_notBare (h : tunnelSettingsOk (tunnelSettingsOf pl) s.roll.geo.lK = true) (hb : ¬Bare s) :
    tunnelSet p pl s = refuse .wrongState s :=
  (if_neg (by rw [h]; decide)).trans (if_pos (Bool.eq_false_iff.mpr fun he => hb ((webEmpty_iff s).mp he)))

theorem tunnelSet_taken (h : tunnelSettingsOk (tunnelSettingsOf pl) s.roll.geo.lK = true) (hb : Bare s) :
    tunnelSet p pl s = okWith [] (s.onDose (tunnelTaken (tunnelSettingsOf pl) s.tracker.pOut)) :=
  (if_neg (by rw [h]; decide)).trans (if_neg (by rw [(webEmpty_iff s).mpr hb]; decide))

end

/-! ### RECIPE_SET (R125) -/

theorem recipeOf_fields {pl : List Byte} (h : pl.length = 26) :
    recipeOf pl =
      { valid := true, tBase := field pl 2 2, inc := ⟨field pl 4 2, field pl 6 2, field pl 8 2, field pl 10 2⟩,
        vNom := field pl 12 2, dMin := field pl 14 3, dMax := field pl 17 3, tScorch := field pl 20 2,
        tStandby := field pl 22 2, band := field pl 24 1, settle := field pl 25 1 } := by
  rw [recipeOf, field_u16 pl 2 (by omega), field_u16 pl 4 (by omega), field_u16 pl 6 (by omega),
    field_u16 pl 8 (by omega), field_u16 pl 10 (by omega), field_u16 pl 12 (by omega), field_u24 pl 14 (by omega),
    field_u24 pl 17 (by omega), field_u16 pl 20 (by omega), field_u16 pl 22 (by omega), field_u8 pl 24 (by omega),
    field_u8 pl 25 (by omega)]

theorem increment_le (r : Recipe) (z : Fin 4) : r.inc.get z ≤ largestInc r := by
  match z with
  | 0 | 1 => exact le_trans (by simp [Four.get]) (le_max_left _ _)
  | 2 | 3 => exact le_trans (by simp [Four.get]) (le_max_right _ _)

theorem largestInc_attained (r : Recipe) : ∃ z, largestInc r = r.inc.get z := by
  unfold largestInc
  rcases max_choice (max r.inc.z0 r.inc.z1) (max r.inc.z2 r.inc.z3) with h | h <;> rw [h]
  · exact (max_choice _ _).elim (⟨0, ·⟩) (⟨1, ·⟩)
  · exact (max_choice _ _).elim (⟨2, ·⟩) (⟨3, ·⟩)

/-- The ranges of a valid recipe; band and settle are bytes, the increments each in range when the largest is (R125). -/
theorem recipeOk_iff {r : Recipe} (hb : r.band ≤ 255) (hs : r.settle ≤ 255) :
    recipeOk r = true ↔
      (500 ≤ r.tBase ∧ r.tBase ≤ 2000) ∧ (∀ z, r.inc.get z ≤ 1000) ∧ 1 ≤ r.vNom ∧ r.dMin < r.dMax ∧
        (∀ z, r.tBase + r.inc.get z < r.tScorch) ∧ r.tScorch ≤ 2500 ∧ r.tStandby < r.tBase ∧ 1 ≤ r.band ∧
        1 ≤ r.settle := by
  obtain ⟨y, hy⟩ := largestInc_attained r
  have hmax : largestInc r ≤ 1000 ↔ ∀ z, r.inc.get z ≤ 1000 :=
    ⟨fun h z => (increment_le r z).trans h, fun h => hy ▸ h y⟩
  have hscorch : r.tBase + largestInc r < r.tScorch ↔ ∀ z, r.tBase + r.inc.get z < r.tScorch :=
    ⟨fun h z => lt_of_le_of_lt (Nat.add_le_add_left (increment_le r z) _) h, fun h => hy ▸ h y⟩
  simp only [recipeOk, Bool.and_eq_true, within_eq_true, decide_eq_true_eq, hmax, hscorch, hb, hs, and_true, and_assoc]

theorem recipeInUse_iff (s : State) (i : Fin 4) :
    recipeInUse s i = true ↔
      s.dose.tunnelRecipe = some i ∨ s.dose.pendingRecipe = some i ∨ ∃ o ∈ s.queue.orders, o.recipe = i := by
  simp only [recipeInUse, Bool.or_eq_true, decide_eq_true_eq, List.any_eq_true, or_assoc]

section
variable {p : Port} {pl : List Byte} {s : State}

theorem recipeSet_badIndex (h : 3 < u8 pl 0 ∨ 1 < u8 pl 1) : recipeSet p pl s = refuse .badValue s := if_pos h

/-- A valid recipe out of range, whatever its index. -/
theorem recipeSet_badRecipe (hv : u8 pl 1 = 1) (h : ¬recipeOk (recipeOf pl) = true) :
    recipeSet p pl s = refuse .badValue s := by
  by_cases hi : 3 < u8 pl 0 ∨ 1 < u8 pl 1
  · exact recipeSet_badIndex hi
  · exact (if_neg hi).trans (if_pos ⟨hv, Bool.eq_false_iff.mpr h⟩)

theorem recipeSet_inRange {i : Fin 4} (hi : u8 pl 0 = i.val)
    (h : u8 pl 1 = 0 ∨ u8 pl 1 = 1 ∧ recipeOk (recipeOf pl) = true) :
    recipeSet p pl s =
      if recipeInUse s i then refuse .inUse s
      else okWith (byte1 (bit (s.dose.recipes.get i).valid 1))
        (s.onDose fun d =>
          { d with recipes :=
            d.recipes.set i (if u8 pl 1 = 1 then recipeOf pl else { d.recipes.get i with valid := false }) }) := by
  have hindex : ¬(3 < u8 pl 0 ∨ 1 < u8 pl 1) := by
    have := i.isLt
    omega
  have hrecipe : ¬(u8 pl 1 = 1 ∧ recipeOk (recipeOf pl) = false) := by
    rintro ⟨hv, hbad⟩
    rcases h with h0 | ⟨-, hok⟩
    · omega
    · rw [hok] at hbad; cases hbad
  rw [← fin4_eq hi]
  exact (if_neg hindex).trans (if_neg hrecipe)

end

/-! ### DOSE_SAMPLE (R131) -/

theorem sampleCells_length (f : Nat → Cell → Cell) (i : Nat) (cs : List (Option Cell)) :
    (sampleCells f i cs).length = cs.length := by
  induction cs generalizing i with
  | nil => rfl
  | cons c cs ih => rw [sampleCells, List.length_cons, List.length_cons, ih]

/-- Each occupied cell is sampled at its own index. -/
theorem sampleCells_getElem? (f : Nat → Cell → Cell) (i n : Nat) (cs : List (Option Cell)) :
    (sampleCells f i cs)[n]? = cs[n]?.map (Option.map (f (i + n))) := by
  induction cs generalizing i n with
  | nil => rfl
  | cons c cs ih =>
    cases n with
    | zero => rfl
    | succ n => rw [sampleCells, List.getElem?_cons_succ, List.getElem?_cons_succ, ih, Nat.add_right_comm, Nat.add_assoc]

/-- The cells after a sample under a recipe (R131). -/
def sampledCells (r : Recipe) (s : State) : List (Option Cell) :=
  sampleCells (fun n => dosedCell r (s.zones.get (zoneOfCell s.dose.tunnel n))) 0 s.dose.cells

theorem sampledCells_getElem? (r : Recipe) (s : State) (n : Nat) :
    (sampledCells r s)[n]? =
      s.dose.cells[n]?.map (Option.map (dosedCell r (s.zones.get (zoneOfCell s.dose.tunnel n)))) := by
  rw [sampledCells, sampleCells_getElem?, Nat.zero_add]

/-- The sample timer runs again (R131). -/
def sampleTimed (s : State) : State := s.onDose fun d => { d with sampleTimer := 100 }

/-- With the hood UP or no tunnel recipe a sample does nothing but run its timer. -/
theorem exec_doseSample_idle {s : State} (h : s.sup.hood = .up ∨ s.dose.tunnelRecipe = none) :
    exec .doseSample s = .next (sampleTimed s) := by
  show Host.Outcome.next (doseSample (sampleTimed s)) = _
  unfold doseSample tunnelEntry
  rcases h with h | h
  · split
    · rfl
    · rw [if_pos (show (sampleTimed s).sup.hood = .up from h)]
  · rw [show (sampleTimed s).dose.tunnelRecipe = none from h]; rfl

theorem exec_doseSample_doses {s : State} {i : Fin 4} (hh : s.sup.hood ≠ .up) (hi : s.dose.tunnelRecipe = some i) :
    exec .doseSample s = .next { s with dose := { s.dose with
      cells := sampledCells (s.dose.recipes.get i) s, sampleTimer := 100 } } := by
  show Host.Outcome.next (doseSample (sampleTimed s)) = _
  unfold doseSample tunnelEntry
  rw [show (sampleTimed s).dose.tunnelRecipe = some i from hi]
  exact congrArg _ (if_neg hh)

end Sys2Proof.Machine

namespace Sys2Proof.Proofs

open Sys2Proof.Machine Sys2Proof.Safety

/-- Settles O26: the block's checks in their order, and the Dose Tracker a taken request leaves. -/
theorem tunnelSet : Obligations.TunnelSet := by
  intro pl extra s hlen f c ok
  have hc : tunnelSettingsOf pl = c := tunnelSettingsOf_fields hlen
  have hok : tunnelSettingsOk (tunnelSettingsOf pl) s.roll.geo.lK = true ↔ ok := by rw [tunnelSettingsOk_iff, hc]
  have hexec := exec_tunnelSet (f := f) s (by rw [hlen]; decide) rfl (by rw [hlen]; rfl)
  refine ⟨fun hbad => ?badValue, fun h hb => ?notBare, fun h hb => ?taken⟩
  case badValue =>
    exact hexec.trans (congrArg _ (answeredBy_refused
      (tunnelSet_badValue (s := received 0x19 f s) (mt hok.mp hbad))))
  case notBare =>
    exact hexec.trans (congrArg _ (answeredBy_refused
      (tunnelSet_notBare (s := received 0x19 f s) (hok.mpr h) hb)))
  case taken =>
    have htaken := answeredBy_dose (tunnelSet_taken (s := received 0x19 f s) (p := f.port) (hok.mpr h) hb)
    rw [hc] at htaken
    exact hexec.trans (congrArg _ htaken)

/-- Settles O30: the block's checks in their order, and the entry a taken request leaves. -/
theorem recipeSet : Obligations.RecipeSet := by
  intro pl extra s hlen f r ok
  have hr : recipeOf pl = r := recipeOf_fields hlen
  have hok : recipeOk (recipeOf pl) = true ↔ ok := by rw [recipeOk_iff (u8_le pl 24) (u8_le pl 25), hr]
  have hexec := exec_recipeSet (f := f) s (by rw [hlen]; decide) rfl (by rw [hlen]; rfl)
  rw [field_u8 pl 0 (by omega), field_u8 pl 1 (by omega)]
  refine ⟨fun hbad => ?badIndex, fun hv hbad => ?badRecipe, fun i hi hv => ?inRange⟩
  case badIndex => exact hexec.trans (congrArg _ (answeredBy_refused (recipeSet_badIndex hbad)))
  case badRecipe =>
    exact hexec.trans (congrArg _ (answeredBy_refused (recipeSet_badRecipe hv (mt hok.mp hbad))))
  case inRange =>
    intro inUse old entry
    have hblock := recipeSet_inRange (s := received 0x14 f s) (p := f.port) hi (hv.imp_right (.imp_right hok.mpr))
    have huse : recipeInUse (received 0x14 f s) i = true ↔ inUse := recipeInUse_iff s i
    refine ⟨fun h => ?inUse, fun h => ?taken⟩
    case inUse =>
      exact hexec.trans (congrArg _ (answeredBy_refused (hblock.trans (if_pos (huse.mpr h)))))
    case taken =>
      have htaken := answeredBy_dose (hblock.trans (if_neg (mt huse.mp h)))
      rw [flagByte_eq, hr] at htaken
      exact hexec.trans (congrArg _ htaken)

/-- Settles O41: a sample with nothing to dose, and one that doses each cell by its zone. -/
theorem doseSample : Obligations.DoseSample := by
  intro s
  refine ⟨exec_doseSample_idle, fun i hh hi => ?_⟩
  refine ⟨_, exec_doseSample_doses hh hi, rfl, sampleCells_length _ _ _, ?_⟩
  intro n c hc q
  have hcell : (sampledCells (s.dose.recipes.get i) s)[n]? =
      some (c.map (dosedCell (s.dose.recipes.get i) q)) :=
    (sampledCells_getElem? _ _ _).trans (congrArg (Option.map _) hc)
  refine ⟨?empty, fun x hx hq => ?unverified, fun x hx hq => ?dosed⟩
  case empty => rintro rfl; exact hcell
  case unverified => subst hx; exact hcell.trans (congrArg (some ∘ some) (if_pos hq))
  case dosed => subst hx; exact hcell.trans (congrArg (some ∘ some) (if_neg hq))

end Sys2Proof.Proofs
end

section
/-! SUPPORT. The ring of cells with the settings that size it: only a reset, TUNNEL_SET, a cell shift and a dose sample
change it (R126, R129 to R131, R136). -/

namespace Sys2Proof.Machine

open Sys2Proof.Safety

/-- The cells, and the tunnel's settings. -/
def cellRing (s : State) : TunnelSettings × List (Option Cell) := (s.dose.tunnel, s.dose.cells)

theorem cellRing_of_kept {s t : State} (h : kept t = kept s) : cellRing t = cellRing s :=
  congrArg (fun k => (k.tunnel, k.cells)) h

/-- The ring of a state that is kept as another is whose ring is known. -/
theorem cellRing_through {u s t : State} (h : kept t = kept u) (hu : cellRing u = cellRing s) :
    cellRing t = cellRing s := (cellRing_of_kept h).trans hu

theorem cellRing_settle (w : Work) : cellRing (settle w) = cellRing w.1 := cellRing_of_kept (kept_settle w)

theorem cellRing_settle_of {w : Work} {s : State} (h : cellRing w.1 = cellRing s) : cellRing (settle w) = cellRing s :=
  (cellRing_settle w).trans h

theorem cellRing_ite {c : Prop} [Decidable c] {a b s : State} (ha : cellRing a = cellRing s)
    (hb : cellRing b = cellRing s) : cellRing (if c then a else b) = cellRing s := by
  split
  · exact ha
  · exact hb

/-- A change of each of some zones that leaves the ring, taken in turn. -/
theorem cellRing_foldl {f : State → Fin 4 → State} (hf : ∀ u z, cellRing (f u z) = cellRing u) (l : List (Fin 4))
    (s : State) : cellRing (l.foldl f s) = cellRing s := by
  induction l generalizing s with
  | nil => rfl
  | cons z l ih => rw [List.foldl_cons, ih, hf]

/-! ### Zones and monitors -/

section
variable (z : Fin 4) (s : State)

theorem cellRing_endTestOf : cellRing (endTestOf z s) = cellRing s := cellRing_ite rfl rfl

theorem cellRing_tripZone : cellRing (tripZone z s) = cellRing s :=
  cellRing_ite (cellRing_endTestOf z (s.onZone z (stoppedZone .tripped))) rfl

theorem cellRing_probeFaultZone : cellRing (probeFaultZone z s) = cellRing s := cellRing_ite rfl rfl

theorem cellRing_releaseTrip : cellRing (releaseTrip z s) = cellRing s := cellRing_ite rfl rfl

theorem cellRing_releaseProbe : cellRing (releaseProbe z s) = cellRing s := cellRing_ite rfl rfl

theorem cellRing_takeReading (n : Nat) : cellRing (takeReading z n s) = cellRing s :=
  cellRing_ite rfl (cellRing_ite rfl rfl)

theorem cellRing_monitorAct : cellRing (monitorAct z s) = cellRing s := by
  unfold monitorAct; split
  · rfl
  · rfl
  all_goals exact cellRing_tripZone z (s.onZoneMonitor z _)

theorem cellRing_monitorSample : cellRing (monitorSample z s) = cellRing s :=
  cellRing_ite (cellRing_monitorAct z (s.onZoneMonitor z (deglitched (sampleCounts s z)))) rfl

theorem cellRing_testPeriod : cellRing (testPeriod z s) = cellRing s := by
  have hjudge : cellRing (judgeTest z s) = cellRing s := by
    unfold judgeTest; split
    · rfl
    · exact cellRing_ite (cellRing_probeFaultZone z _) rfl
  exact cellRing_ite (cellRing_ite rfl hjudge) rfl

theorem cellRing_regulationPeriod : cellRing (regulationPeriod z s) = cellRing s := by
  have hregulate : cellRing (regulateZone z s) = cellRing s := cellRing_ite rfl rfl
  calc cellRing (regulationPeriod z s)
    _ = cellRing (retryRelease z (monitorPeriod z (regulateZone z s))) := cellRing_testPeriod z _
    _ = cellRing (monitorPeriod z (regulateZone z s)) := cellRing_ite (cellRing_releaseTrip z _) rfl
    _ = cellRing s := hregulate

theorem cellRing_clearZone : cellRing (clearZone s z) = cellRing s := by rw [clearZone_eq]; rfl

theorem cellRing_beginSearch : cellRing (beginSearch s) = cellRing s := by unfold beginSearch; split <;> rfl

end

/-! ### Requests -/

section
variable (p : Port) (pl : List Byte) (s : State)

theorem cellRing_statusRead : cellRing (statusRead p pl s).1 = cellRing s := by
  unfold statusRead; split
  case h_2 | h_5 => split <;> rfl
  case h_7 => exact cellRing_ite rfl rfl
  all_goals rfl

theorem cellRing_eventTake : cellRing (eventTake p pl s).1 = cellRing s := by unfold eventTake; dsimp only; split <;> rfl

theorem cellRing_routeSet : cellRing (routeSet p pl s).1 = cellRing s := by unfold routeSet; split <;> rfl

theorem cellRing_floorSet : cellRing (floorSet p pl s).1 = cellRing s := by unfold floorSet; split <;> rfl

theorem cellRing_presenceSet : cellRing (presenceSet p pl s).1 = cellRing s := by unfold presenceSet; split <;> rfl

/-- A start sets the tunnel recipe, not the ring (R127). -/
theorem cellRing_lineStart : cellRing (lineStart p pl s).1 = cellRing s := by
  have hstart : ∀ i, cellRing (settle (enterLine .warming (recipeForRun i s))) = cellRing s := fun i =>
    cellRing_settle_of (cellRing_through (kept_enterLine _ _) (cellRing_ite rfl rfl))
  unfold lineStart; split
  · rfl
  · next o _ =>
    split
    · dsimp only [okWith]
      exact hstart o.recipe
    · rfl

theorem cellRing_lineStop : cellRing (lineStop p pl s).1 = cellRing s := by
  have hstop : cellRing (settle (stopNow s)) = cellRing s := cellRing_settle_of (cellRing_of_kept (kept_stopNow s))
  unfold lineStop; split
  · rfl
  · unfold stopLine; split
    case h_4 | h_5 => exact hstop
    case h_6 | h_7 =>
      split
      · rfl
      · exact hstop
    all_goals rfl

theorem cellRing_recipeSet : cellRing (recipeSet p pl s).1 = cellRing s := by
  unfold recipeSet; dsimp only; split
  · rfl
  · split
    · rfl
    · split <;> rfl

theorem cellRing_zoneSetRequest : cellRing (zoneSetRequest p pl s).1 = cellRing s := by
  obtain ⟨m, happly, -⟩ := applyZoneSet_eq (pl := pl) rfl s
  unfold zoneSetRequest; split
  · rfl
  · exact cellRing_settle_of (by rw [happly]; rfl)

theorem cellRing_monitorSet : cellRing (monitorSet p pl s).1 = cellRing s := by
  have hinterval : cellRing (newInterval (u8 pl 1) s) = cellRing s := by
    unfold newInterval; split
    · rfl
    · dsimp only; split
      · rfl
      · exact cellRing_ite rfl rfl
  unfold monitorSet; split
  · rfl
  · split
    · split
      · unfold monitorSetLine; split
        · rfl
        · exact hinterval
      · rfl
    · split
      · unfold monitorSetZone; dsimp only; split <;> rfl
      · rfl

theorem cellRing_faultClear : cellRing (faultClear p pl s).1 = cellRing s := by
  have hline : ∀ u : State, cellRing (clearLine u).1 = cellRing u := fun u =>
    congrArg (fun k : Kept => (k.tunnel, k.cells)) (kept_clearLine u)
  have hzones : cellRing (zonesInOrder.foldl clearZone s) = cellRing s :=
    cellRing_foldl (fun u z => cellRing_clearZone z u) _ s
  unfold faultClear; split
  · rfl
  · dsimp only [okWith]
    exact cellRing_settle_of ((hline (zonesInOrder.foldl clearZone s)).trans hzones)

theorem cellRing_formerSet : cellRing (formerSet p pl s).1 = cellRing s := by
  unfold formerSet; dsimp only; split
  · rfl
  · split
    · rfl
    · split <;> rfl

theorem cellRing_motionSet : cellRing (motionSet p pl s).1 = cellRing s := by
  unfold motionSet; dsimp only; split
  · rfl
  · split <;> rfl

theorem cellRing_giveEstop (b : Bool) : cellRing (giveEstop b s).1 = cellRing s := by rw [giveEstop_leaves]; rfl

theorem cellRing_inputSet : cellRing (inputSet p pl s).1 = cellRing s := by
  by_cases hok : inputSettingsOk pl = true
  · by_cases hw : sameWiring (inputSettingsOf pl) s.tracker.set = true ∨ Bare s
    · rw [inputSet_taken hok hw]
      exact cellRing_settle_of (cellRing_giveEstop (rewired (inputSettingsOf pl) s) _)
    · rw [inputSet_wrongState hok (fun h => hw (.inl h)) fun h => hw (.inr h)]
      rfl
  · rw [inputSet_badValue hok]
    rfl

theorem cellRing_rollGeometrySet : cellRing (rollGeometrySet p pl s).1 = cellRing s := by
  unfold rollGeometrySet; dsimp only; split
  · rfl
  · split <;> rfl

theorem cellRing_patternBegin : cellRing (patternBegin p pl s).1 = cellRing s := by
  unfold patternBegin; dsimp only; split
  · rfl
  · split
    · rfl
    · split <;> rfl

theorem cellRing_patternSteps : cellRing (patternSteps p pl s).1 = cellRing s := by
  unfold patternSteps; split
  · rfl
  · dsimp only; split <;> rfl

theorem cellRing_patternEnd : cellRing (patternEnd p pl s).1 = cellRing s := by
  unfold patternEnd; split
  · rfl
  · dsimp only; split <;> rfl

theorem cellRing_patternDelete : cellRing (patternDelete p pl s).1 = cellRing s := by
  unfold patternDelete; dsimp only; split
  · rfl
  · split
    case h_2 => split <;> rfl
    all_goals rfl

theorem cellRing_orderQueue : cellRing (orderQueue p pl s).1 = cellRing s := by
  unfold orderQueue; split
  · rfl
  · split
    · rfl
    · split
      · rfl
      · split
        · rfl
        · exact cellRing_settle _

theorem cellRing_orderCancel : cellRing (orderCancel p pl s).1 = cellRing s := by
  have hremove : ∀ o, cellRing (removeOrder o s) = cellRing s := fun o => cellRing_through (kept_queuedFell _) rfl
  unfold orderCancel; split
  · rfl
  · split
    · rfl
    · split
      · split
        · rfl
        · split
          · rfl
          · exact cellRing_settle_of (cellRing_of_kept (kept_retire 1 s))
      · exact cellRing_settle_of (hremove _)

theorem cellRing_reportTake : cellRing (reportTake p pl s).1 = cellRing s := by
  have hwaiting : ∀ u : State, cellRing (makeWaitingReport u).1 = cellRing u := fun u => by
    unfold makeWaitingReport; split
    · rfl
    · split
      · exact cellRing_through (kept_queueReport _ _) rfl
      · rfl
  unfold reportTake; split
  · rfl
  · exact cellRing_settle_of (hwaiting _)

theorem cellRing_queueLowSet : cellRing (queueLowSet p pl s).1 = cellRing s := by unfold queueLowSet; split <;> rfl

theorem cellRing_rollStatus : cellRing (rollStatus p pl s).1 = cellRing s := by
  unfold rollStatus; split
  · rfl
  · split
    · rfl
    · exact cellRing_settle_of (cellRing_through (kept_testRollLow _) rfl)

theorem cellRing_spliceArm : cellRing (spliceArm p pl s).1 = cellRing s := by
  unfold spliceArm; split
  · rfl
  · split
    · rfl
    · exact cellRing_settle _

theorem cellRing_spliceForce : cellRing (spliceForce p pl s).1 = cellRing s := by
  unfold spliceForce; split
  · rfl
  · split
    · rfl
    · exact cellRing_through (kept_forceSplice _) rfl

theorem cellRing_spliceCancel : cellRing (spliceCancel p pl s).1 = cellRing s := by
  unfold spliceCancel; split
  case h_4 => rfl
  case h_5 => split <;> rfl
  all_goals exact cellRing_settle_of (cellRing_of_kept (kept_withdrawSplice none s))

theorem cellRing_cutRequest : cellRing (cutRequest p pl s).1 = cellRing s := by
  have hflag : ∀ n, cellRing (flagCutThrough n s) = cellRing s := fun n => by unfold flagCutThrough; split <;> rfl
  unfold cutRequest; split
  · rfl
  · split
    · unfold cutNextEnd; split
      · rfl
      · exact cellRing_through (kept_chooseTarget _) rfl
    · unfold cutForce; split
      · rfl
      · exact hflag _

theorem cellRing_withdrawCut : cellRing (withdrawCut s) = cellRing s := cellRing_ite rfl rfl

theorem cellRing_cutCancel : cellRing (cutCancel p pl s).1 = cellRing s := by
  unfold cutCancel; split
  · exact cellRing_withdrawCut s
  · rfl
  · split <;> rfl

/-! ### Counts, switches and timers -/

theorem cellRing_portLost : cellRing (portLost p s).1 = cellRing s := by
  cases p
  case line => exact cellRing_of_kept (kept_stopNow s)
  case pattern => rfl
  case roll => exact cellRing_withdrawCut s

theorem cellRing_cutCompare : cellRing (cutCompare s) = cellRing s := by
  unfold cutCompare; split
  · rfl
  · split <;> rfl

theorem cellRing_takeLevel (sw : Switch) : cellRing (takeLevel sw s) = cellRing s := by
  have hoffer : ∀ (x : Pos) (u : State), cellRing (offerCapture x u) = cellRing u := fun x u => by
    unfold offerCapture; split
    · exact cellRing_ite rfl rfl
    · rfl
  refine cellRing_ite rfl (cellRing_settle_of ?_)
  cases sw <;> dsimp only [edgeEffect] <;> split
  case hoodUp.isFalse | hoodDown.isTrue => exact cellRing_through (kept_deriveHood _) rfl
  case jointDetector.isTrue =>
    exact cellRing_through (kept_addJoint _ _ _) (hoffer _ (onFilter .jointDetector _ s))
  all_goals rfl

theorem cellRing_speedUpdate : cellRing (speedUpdate s).1 = cellRing s := by
  have hheat : ∀ u, cellRing (takeHeatLimit u) = cellRing u := fun u =>
    cellRing_ite (cellRing_through (kept_setCauses _ _) rfl) rfl
  unfold speedUpdate
  dsimp only
  rw [hheat]
  exact cellRing_through (kept_retarget _) rfl

end

/-! ### What changes the ring -/

section
variable {s t : State}

/-- The law is one of the ring. -/
theorem ring_of_cellRing (h : cellRing t = cellRing s) (hs : Ring s) : Ring t := by
  obtain ⟨htunnel, hcells⟩ := Prod.mk.inj h
  unfold Safety.Ring
  rw [htunnel, hcells]
  exact hs

/-- A ring of empty cells. -/
theorem ring_of_empty (hc : t.dose.cells = List.replicate t.dose.tunnel.n none) (hn : 16 ≤ t.dose.tunnel.n) : Ring t := by
  refine ⟨by rw [hc, List.length_replicate], hn, fun c hmem => ?_⟩
  rw [hc] at hmem
  cases List.eq_of_mem_replicate hmem

theorem ring_serve {kind : Byte} {auth : Option Port} {lengthOk : Nat → Bool}
    {block : Port → List Byte → State → State × Answer}
    (hb : ∀ p pl {u : State}, Ring u → Ring (block p pl u).1) {f : Frame} (h : Ring s) :
    Ring (serve kind auth lengthOk block f s) := by
  unfold serve
  dsimp only
  split
  · exact h
  · split
    · exact h
    · split
      · exact hb _ _ h
      · exact h

/-- A line reset empties every cell (R136). -/
theorem ring_lineReset (p : Port) (pl : List Byte) {s : State} (h : Ring s) : Ring (lineReset p pl s).1 := by
  unfold lineReset; split
  · have hreset : cellRing (resetZones (lineResetState s)) = cellRing (lineResetState s) := by rw [resetZones_eq]; rfl
    have hempty : Ring (lineResetState s) := ring_of_empty rfl h.2.1
    exact ring_of_cellRing (s := lineResetState s) hreset hempty
  · exact h

/-- A tunnel taken has 16 cells or more, all empty (R126). -/
theorem ring_tunnelSet (p : Port) (pl : List Byte) {s : State} (h : Ring s) : Ring (tunnelSet p pl s).1 := by
  by_cases hok : tunnelSettingsOk (tunnelSettingsOf pl) s.roll.geo.lK = true
  · by_cases hb : Bare s
    · rw [tunnelSet_taken hok hb]
      exact ring_of_empty rfl ((tunnelSettingsOk_iff _ _).mp hok).1.1
    · rw [tunnelSet_notBare hok hb]
      exact h
  · rw [tunnelSet_badValue hok]
    exact h

/-- A dose stops at the largest number of 24 bits (R131). -/
theorem dosedCell_dose_le {r : Recipe} {q : Zone} {c : Cell} (h : c.dose ≤ 16777215) :
    (dosedCell r q c).dose ≤ 16777215 := by
  unfold dosedCell; split
  · exact h
  · exact Nat.min_le_left _ _

theorem ring_doseSample (h : Ring s) : Ring (doseSample s) := by
  obtain ⟨hlen, hn, hdose⟩ := h
  unfold doseSample; split
  · exact ⟨hlen, hn, hdose⟩
  · next r _ =>
    split
    · exact ⟨hlen, hn, hdose⟩
    · refine ⟨(sampleCells_length _ _ _).trans hlen, hn, fun c hc => ?_⟩
      obtain ⟨n, hget⟩ := List.mem_iff_getElem?.mp hc
      have hcell := (sampledCells_getElem? r s n).symm.trans hget
      obtain ⟨x, hx, hsampled⟩ := Option.map_eq_some_iff.mp hcell
      obtain ⟨y, rfl, rfl⟩ := Option.map_eq_some_iff.mp hsampled
      exact dosedCell_dose_le (hdose y (List.mem_of_getElem? hx))

/-- A shift drops the last cell and takes in one without a dose (R130). -/
theorem ring_shiftCells (h : Ring s) : Ring (shiftCells s) := by
  by_cases hat : s.tracker.pOut = s.dose.nextShift
  · obtain ⟨hlen, hn, hdose⟩ := h
    rw [shiftCells_at hat]
    refine ⟨?_, hn, fun c hc => ?_⟩
    · show (s.dose.cells.dropLast).length + 1 = s.dose.tunnel.n
      rw [List.length_dropLast]
      omega
    · rcases List.mem_cons.mp hc with hnew | hold
      · cases hnew
        exact Nat.zero_le _
      · exact hdose c (List.dropLast_subset _ hold)
  · rw [shiftCells_off hat]
    exact h

end

/-! ### Commands and steps -/

/-- Every command with all that follows from it keeps the ring's law: most leave the ring as it is. -/
theorem ring_exec {c : Instr} {s t : State} (hs : Ring s) (h : exec c s = .next t) : Ring t := by
  have same : ∀ {block : Port → List Byte → State → State × Answer},
      (∀ p pl u, cellRing (block p pl u).1 = cellRing u) → ∀ p pl {u : State}, Ring u → Ring (block p pl u).1 :=
    fun hb p pl u hu => ring_of_cellRing (hb p pl u) hu
  have still : ∀ {u : State}, cellRing u = cellRing s → Ring u := fun hu => ring_of_cellRing hu hs
  have settled : ∀ {w : Work}, cellRing w.1 = cellRing s → Ring (settle w) := fun hw =>
    still ((cellRing_settle _).trans hw)
  cases c
  case incompleteFrame p bytes =>
    simp only [exec, execIncompleteFrame] at h
    split at h <;> cases h
    exact hs
  case unknownKindFrame kind f =>
    simp only [exec, execUnknownKindFrame] at h
    split at h <;> cases h
    split <;> exact hs
  all_goals obtain rfl := Host.Outcome.next.inj h
  case deviceReset => exact ring_powerOn s.pins
  case emptyTransaction p => exact hs
  case nop f => exact ring_serve (fun _ _ _ h => h) hs
  case lineView | zoneView | formerView | queueView | panelView | mapView | spliceView | portView =>
    exact ring_serve (same cellRing_statusRead) hs
  case eventTake f => exact ring_serve (same cellRing_eventTake) hs
  case routeSet f => exact ring_serve (same cellRing_routeSet) hs
  case floorSet f => exact ring_serve (same cellRing_floorSet) hs
  case presenceSet f => exact ring_serve (same cellRing_presenceSet) hs
  case lineStart f => exact ring_serve (same cellRing_lineStart) hs
  case lineStopImmediate | lineStopEndOfPanel => exact ring_serve (same cellRing_lineStop) hs
  case lineReset f => exact ring_serve ring_lineReset hs
  case speedSet f => exact ring_serve (block := speedSet) (fun _ _ _ h => h) hs
  case recipeSet f => exact ring_serve (same cellRing_recipeSet) hs
  case zoneSet | zoneDisable | zoneArm | zoneEnable => exact ring_serve (same cellRing_zoneSetRequest) hs
  case monitorSetZone | monitorSetLine => exact ring_serve (same cellRing_monitorSet) hs
  case faultClear f => exact ring_serve (same cellRing_faultClear) hs
  case formerSet f => exact ring_serve (same cellRing_formerSet) hs
  case tunnelSet f => exact ring_serve ring_tunnelSet hs
  case motionSet f => exact ring_serve (same cellRing_motionSet) hs
  case inputSet f => exact ring_serve (same cellRing_inputSet) hs
  case rollGeometrySet f => exact ring_serve (same cellRing_rollGeometrySet) hs
  case patternBegin f => exact ring_serve (same cellRing_patternBegin) hs
  case patternSteps f => exact ring_serve (same cellRing_patternSteps) hs
  case patternEnd f => exact ring_serve (same cellRing_patternEnd) hs
  case patternDelete f => exact ring_serve (same cellRing_patternDelete) hs
  case orderQueue f => exact ring_serve (same cellRing_orderQueue) hs
  case orderCancel f => exact ring_serve (same cellRing_orderCancel) hs
  case reportTake f => exact ring_serve (same cellRing_reportTake) hs
  case queueLowSet f => exact ring_serve (same cellRing_queueLowSet) hs
  case rollStatus f => exact ring_serve (same cellRing_rollStatus) hs
  case spliceArm f => exact ring_serve (same cellRing_spliceArm) hs
  case spliceForce f => exact ring_serve (same cellRing_spliceForce) hs
  case spliceCancel f => exact ring_serve (same cellRing_spliceCancel) hs
  case cutRequestNextEnd | cutRequestForce => exact ring_serve (same cellRing_cutRequest) hs
  case cutCancel f => exact ring_serve (same cellRing_cutCancel) hs
  case presenceExpiry p => exact still (cellRing_ite (cellRing_settle_of (cellRing_portLost p _)) rfl)
  case infeedCount a b => exact still (cellRing_ite rfl (cellRing_settle _))
  case outfeedCount a b =>
    dsimp only
    split
    · exact hs
    · have hshift : ∀ {u : State}, Ring u → Ring (cutCompare (shiftCells u)) := fun {u} hu =>
        ring_of_cellRing (cellRing_cutCompare _) (ring_shiftCells hu)
      exact ring_of_cellRing (cellRing_settle _) (hshift hs)
    · exact settled rfl
  case switchPinChange sw high =>
    exact still (cellRing_ite rfl (cellRing_ite (cellRing_takeLevel (s.onPins (setPin sw high)) sw) rfl))
  case filterExpiry sw => exact still (cellRing_ite (cellRing_takeLevel s sw) rfl)
  case estopChange high => exact settled (cellRing_giveEstop _ _)
  case feedTimeout | tuckEnd | pressEnd | bladeJam | breakTimerExpiry | hoodTimerExpiry =>
    exact still (cellRing_ite (cellRing_settle _) rfl)
  case hoodDelayExpiry =>
    exact still (cellRing_ite (cellRing_settle_of (cellRing_through (kept_commandHood _ _) rfl)) rfl)
  case probeSample z n => exact settled ((cellRing_monitorSample z _).trans (cellRing_takeReading z _ n))
  case regulationPeriod z => exact settled (cellRing_regulationPeriod z _)
  case valveWindowStart | valveClose | splicePulseEnd => exact hs
  case doseSample => exact ring_doseSample (s := sampleTimed s) hs
  case speedUpdate =>
    exact still ((cellRing_of_kept (kept_speedSteps _)).trans (cellRing_settle_of (cellRing_speedUpdate s)))
  case probeCheckTimer => exact still (cellRing_ite rfl (cellRing_ite (cellRing_beginSearch _) rfl))
  case cutPulseEnd => exact still (cellRing_ite rfl rfl)

/-- A millisecond that passes reaches the sample timer only; every other step is a command's. -/
theorem ring_step {s t : State} (hs : Ring s) (h : step s = .next t) : Ring t := by
  rcases step_cases h with ⟨-, rfl⟩ | ⟨-, c, -, hc⟩ | ⟨c, rest, -, hc⟩
  · exact hs
  · exact ring_exec (s := s.nextFree) hs hc
  · exact ring_exec (s := s.withPending rest) hs hc

end Sys2Proof.Machine

namespace Sys2Proof.Proofs

open Sys2Proof.Machine Sys2Proof.Safety

/-- Settles O59: a reset and TUNNEL_SET empty the ring, a shift keeps its length, a sample its bound; no other command
reaches it. -/
theorem ringKept : Obligations.RingKept := fun _ _ => ring_step

end Sys2Proof.Proofs
end

section
/-! SUPPORT. LINE_START: what forbids a start, the run's recipe (R127), and WARMING entered with a used zone not settled
(R178, R179). -/

namespace Sys2Proof.Machine

open Sys2Proof.Safety

/-! ### The checks -/

theorem zoneFaulted_iff (q : Zone) : zoneFaulted q = true ↔ q.state = .tripped ∨ q.state = .probeFault := by
  simp only [zoneFaulted, Bool.or_eq_true, decide_eq_true_eq]

theorem mayStart_iff (s : State) :
    mayStart s = true ↔ s.sup.line = .stopped ∧ s.former.retractAfterTrip = false ∧
      ¬(∃ z, (s.zones.get z).state = .tripped ∨ (s.zones.get z).state = .probeFault) ∧ s.monitor.estop = false := by
  have hzones : (zonesInOrder.any fun z => zoneFaulted (s.zones.get z)) = true ↔
      ∃ z, (s.zones.get z).state = .tripped ∨ (s.zones.get z).state = .probeFault := by
    simp only [List.any_eq_true, mem_zonesInOrder, true_and, zoneFaulted_iff]
  rw [← hzones]
  simp only [mayStart, Bool.and_eq_true, decide_eq_true_eq, Bool.not_eq_true', Bool.not_eq_true, and_assoc]

section
variable {p : Port} {pl : List Byte} {s : State}

theorem lineStart_noOrder (h : s.queue.orders = []) : lineStart p pl s = refuse .wrongState s := by
  unfold lineStart headOrder
  rw [h]
  rfl

theorem lineStart_forbidden (h : ¬mayStart s = true) : lineStart p pl s = refuse .wrongState s := by
  unfold lineStart
  split
  · rfl
  · exact if_neg h

theorem lineStart_taken {o : Order} {os : List Order} (ho : s.queue.orders = o :: os) (h : mayStart s = true) :
    lineStart p pl s = okWith
      (byte1 (orNone255 (settle (enterLine .warming (recipeForRun o.recipe s))).dose.tunnelRecipe))
      (settle (enterLine .warming (recipeForRun o.recipe s))) := by
  unfold lineStart headOrder
  rw [ho]
  exact if_pos h

end

/-! ### The run's recipe (R127) -/

/-- The recipe a start gives the tunnel: the one it holds panels of, else the order's. -/
def runRecipe (i : Fin 4) (s : State) : Option (Fin 4) := if tunnelHoldsPanel s = true then s.dose.tunnelRecipe else some i

theorem recipeForRun_eq (i : Fin 4) (s : State) :
    ∃ d f, recipeForRun i s = { s with dose := d, former := f } ∧ d.recipes = s.dose.recipes ∧
      d.tunnelRecipe = runRecipe i s := by
  unfold recipeForRun runRecipe
  split
  · exact ⟨s.dose, s.former, rfl, rfl, rfl⟩
  · exact ⟨_, _, rfl, rfl, rfl⟩

/-- A recipe index as a byte, 255 for none. -/
theorem recipeByte_eq (i : Option (Fin 4)) :
    byte1 (orNone255 i) = [match i with | none => 255 | some i => BitVec.ofNat 8 i.val] := by
  cases i <;> rfl

/-! ### WARMING with a zone not settled -/

/-- A target handed resets the settle count or leaves it (R109). -/
theorem handed_settle_le (t : Nat) (q : Zone) : (handed t q).settle ≤ q.settle := by
  unfold handed
  split
  · exact Nat.le_refl _
  · exact Nat.zero_le _

theorem setLine_settle_le (l : LineState) (s : State) (z : Fin 4) :
    ((setLine l s).zones.get z).settle ≤ (s.zones.get z).settle := by
  unfold setLine
  rw [(retarget_handed _ z).1]
  exact handed_settle_le _ _

theorem settledNow_none {s : State} (h : s.dose.tunnelRecipe = none) : settledNow s = false := by
  unfold settledNow tunnelEntry
  rw [h]
  rfl

/-- Not settled, WARMING goes on and a bridge waits (R78, R179). -/
theorem settles_warming {s : State} (h : settledNow s = false) (hj : JointFlags s) :
    Settles 4 [.settled false, .warm] s { s with settledReported := false } := by
  have hj' : JointFlags { s with settledReported := false } := hj
  have hwarm : handle .warm { s with settledReported := false } = quiet { s with settledReported := false } :=
    if_neg fun hw => by cases hw.2
  have hbridge : handle .bridge { s with settledReported := false } = quiet { s with settledReported := false } :=
    if_neg fun hb => by cases hb.2.2.2.1
  have hlast := Settles.skip hwarm (flagJoints_self hj') (Settles.done { s with settledReported := false })
  cases hr : s.settledReported with
  | false =>
    have hs : { s with settledReported := false } = s := by rw [← hr]
    have hquiet : handle (.settled false) s = quiet s := if_pos ⟨h.trans hr.symm, rfl⟩
    rw [hs] at hlast ⊢
    exact fun n hn => Settles.skip hquiet (flagJoints_self hj) hlast n (by omega)
  | true =>
    have hreport : handle (.settled false) s = ({ s with settledReported := false }, [Sig.warm, Sig.bridge]) := by
      show reportSettled false s = _
      unfold reportSettled
      rw [h, hr]
      rfl
    refine Settles.take hreport ?_
    rw [flagJoints_self hj']
    exact Settles.skip hwarm (flagJoints_self hj') (Settles.skip hbridge (flagJoints_self hj') hlast)

theorem flagJoints_frame (s : State) : flagJoints s = { s with tracker := (flagJoints s).tracker } := by
  obtain ⟨g, -, hg⟩ := flagJoints_eq s
  rw [hg]
  rfl

/-- What follows the entry to WARMING: the joint flags set and the settled condition withdrawn. -/
theorem settle_warming {s : State} (h : settledNow s = false) :
    settle (s, [.settled false, .warm]) = { s with tracker := (flagJoints s).tracker, settledReported := false } := by
  have hframe := flagJoints_frame s
  have hsettled : settledNow (flagJoints s) = false := by rw [hframe]; exact h
  calc settle (s, [.settled false, .warm])
    _ = { flagJoints s with settledReported := false } :=
      Settles.settle (settles_warming hsettled (jointFlags_flagJoints s)) (by decide)
    _ = _ := congrArg (fun u : State => { u with settledReported := false }) hframe

/-- No tunnel recipe, or one with a used zone below its settle count. -/
def Cold (s : State) : Prop :=
  ∀ i, s.dose.tunnelRecipe = some i →
    ∃ z, (s.dose.recipes.get i).inc.get z ≠ 0 ∧ (s.zones.get z).settle < (s.dose.recipes.get i).settle

theorem cold_recipeForRun {s : State} {i : Fin 4}
    (h : ∀ j, runRecipe i s = some j → ∃ z, (s.dose.recipes.get j).inc.get z ≠ 0 ∧
      (s.zones.get z).settle < (s.dose.recipes.get j).settle) : Cold (recipeForRun i s) := by
  obtain ⟨d, former, hrun, hrecipes, hrecipe⟩ := recipeForRun_eq i s
  intro j hj
  rw [hrun] at hj ⊢
  obtain ⟨z, hz, hs⟩ := h j (hrecipe.symm.trans hj)
  exact ⟨z, by rwa [hrecipes], by rwa [hrecipes]⟩

/-- The targets handed on entry to a line state settle no zone. -/
theorem settledNow_setLine {s : State} (h : Cold s) (l : LineState) : settledNow (setLine l s) = false := by
  obtain ⟨zs, ms, hline⟩ := setLine_eq s l
  have hdose : (setLine l s).dose = s.dose := by rw [hline]
  cases hi : s.dose.tunnelRecipe with
  | none => exact settledNow_none (hdose ▸ hi)
  | some i =>
    obtain ⟨z, hz, hs⟩ := h i hi
    refine settledNow_false (hdose ▸ hi) ⟨z, ?_⟩
    rw [hdose]
    exact ⟨hz, lt_of_le_of_lt (setLine_settle_le l s z) hs⟩

/-- Every zone's target in a line state that runs (R108, R134). -/
theorem setLine_runTarget {l : LineState} (hl : ¬(l = .stopped ∨ l = .tripped)) {s : State} {i : Fin 4}
    (hi : s.dose.tunnelRecipe = some i) (z : Fin 4) :
    ((setLine l s).zones.get z).target = runTarget (s.dose.recipes.get i) s.sup.vPlanRun z := by
  have hentry : tunnelEntry s = some (s.dose.recipes.get i) := congrArg (Option.map _) hi
  rw [setLine_target, hentry, targetFor_eq]
  exact if_neg hl

/-- A start with a used zone of the run's recipe not settled: what it leaves of a line (R178). -/
theorem settle_start {s : State} {i : Fin 4} (h : Cold (recipeForRun i s)) :
    ∃ t, settle (enterLine .warming (recipeForRun i s)) = t ∧ t.ports = s.ports ∧ t.sup.line = .warming ∧
      t.sup.prev = s.sup.line ∧ t.dose.tunnelRecipe = runRecipe i s ∧
      t.router = s.router.map (notePort .lineState [1, BitVec.ofNat 8 (lineStateCode s.sup.line), 0]) ∧
      ∀ j z, runRecipe i s = some j →
        (t.zones.get z).target = runTarget (s.dose.recipes.get j) s.sup.vPlanRun z := by
  obtain ⟨d, former, hrun, hrecipes, hrecipe⟩ := recipeForRun_eq i s
  have hsettle := settle_warming (settledNow_setLine h .warming)
  obtain ⟨zs, ms, hline⟩ := setLine_eq (recipeForRun i s) .warming
  refine ⟨_, hsettle, ?_, ?_, ?_, ?_, ?_, fun j z hj => ?target⟩
  case target =>
    have hrecipe' : (recipeForRun i s).dose.tunnelRecipe = some j := by rw [hrun]; exact hrecipe.trans hj
    have htarget := setLine_runTarget (l := .warming) (by decide) hrecipe' z
    have hsame : (recipeForRun i s).dose.recipes = s.dose.recipes ∧ (recipeForRun i s).sup = s.sup := by
      rw [hrun]; exact ⟨hrecipes, rfl⟩
    rwa [hsame.1, hsame.2] at htarget
  all_goals rw [hline, hrun]
  · exact hrecipe
  · rfl

end Sys2Proof.Machine

namespace Sys2Proof.Proofs

open Sys2Proof.Machine Sys2Proof.Safety

/-- Settles O31: the block's checks, then WARMING entered with the run's recipe, which no settling ends. -/
theorem lineStart : Obligations.LineStart := by
  intro extra s f faulted
  have hexec := exec_lineStart (f := f) s (Nat.zero_le _) rfl rfl
  refine ⟨fun hno => ?refused, ?started⟩
  case refused =>
    refine hexec.trans (congrArg _ (answeredBy_refused ?_))
    by_cases ho : s.queue.orders = []
    · exact lineStart_noOrder (s := received 0x10 f s) ho
    · refine lineStart_forbidden (s := received 0x10 f s) fun hmay => ?_
      obtain ⟨hl, hr, hz, he⟩ := (mayStart_iff _).mp hmay
      rcases hno with h | h | h | h | h
      · exact h hl
      · exact ho h
      · exact Bool.false_ne_true (hr.symm.trans h)
      · exact hz h
      · exact Bool.false_ne_true (he.symm.trans h)
  case started =>
    intro o os hl ho hr hz he run hcold
    have hblock := lineStart_taken (s := received 0x10 f s) (p := f.port) (pl := f.payload) ho
      ((mayStart_iff _).mpr ⟨hl, hr, hz, he⟩)
    obtain ⟨t, ht, hports, hline, hprev, htunnel, hrouter, htarget⟩ :=
      settle_start (cold_recipeForRun (s := received 0x10 f s) hcold)
    rw [ht, htunnel] at hblock
    refine ⟨_, hexec.trans (congrArg _ (answeredBy_eq hblock hports)), ?_, hline, hprev.trans hl, htunnel, ?_, htarget⟩
    · exact congrArg (fun pl => (answered 0x10 f .ok pl s).ports) (recipeByte_eq run)
    · rw [received_sup, hl] at hrouter
      exact hrouter

end Sys2Proof.Proofs
end

section
/-! SUPPORT. MONITOR_SET: the two forms told apart by byte 0, the zone form's new settings and the line form's new
interval and break settings (R138, R144, R147). -/

namespace Sys2Proof.Machine

open Sys2Proof.Safety

/-- Both rows of MONITOR_SET do what their payload says. -/
theorem exec_monitorSetRow {c : Instr} {f : Frame} (s : State) (hf : f.port = .line)
    (hl : f.payload.length = 5 ∨ f.payload.length = 6) (h : c = .monitorSetZone f ∨ c = .monitorSetLine f) :
    exec c s = .next (answeredBy 0x16 monitorSet f s) := by
  have h60 : f.payload.length ≤ 60 := by omega
  have h56 : (fun n => exactly 5 n || exactly 6 n) f.payload.length = true := by
    rcases hl with hl | hl <;> rw [hl] <;> rfl
  rcases h with rfl | rfl
  · exact exec_monitorSetZone s h60 hf h56
  · exact exec_monitorSetLine s h60 hf h56

/-! ### The two forms (R138) -/

section
variable {p : Port} {pl : List Byte} {s : State}

theorem monitorSet_badIndex (h : 4 < u8 pl 0) : monitorSet p pl s = refuse .badValue s := if_pos h

/-- A zone's index with the line form's length. -/
theorem monitorSet_zoneLength (h : u8 pl 0 ≤ 3) (hl : pl.length = 5) : monitorSet p pl s = refuse .badLength s :=
  (if_neg (by omega)).trans ((if_neg (by omega)).trans (if_neg (by omega)))

/-- The line's index with the zone form's length. -/
theorem monitorSet_lineLength (h : u8 pl 0 = 4) (hl : pl.length = 6) : monitorSet p pl s = refuse .badLength s :=
  (if_neg (by omega)).trans ((if_pos h).trans (if_neg (by omega)))

theorem monitorSet_zoneForm (h : u8 pl 0 ≤ 3) (hl : pl.length = 6) : monitorSet p pl s = monitorSetZone pl s :=
  (if_neg (by omega)).trans ((if_neg (by omega)).trans (if_pos hl))

theorem monitorSet_lineForm (h : u8 pl 0 = 4) (hl : pl.length = 5) : monitorSet p pl s = monitorSetLine pl s :=
  (if_neg (by omega)).trans ((if_pos h).trans (if_pos hl))

theorem monitorSetZone_badValue (h : ¬monitorZoneOk pl = true) : monitorSetZone pl s = refuse .badValue s :=
  if_pos (Bool.eq_false_iff.mpr h)

theorem monitorSetLine_badValue (h : ¬monitorLineOk pl = true) : monitorSetLine pl s = refuse .badValue s :=
  if_pos (Bool.eq_false_iff.mpr h)

end

theorem monitorZoneOk_iff {pl : List Byte} (h : pl.length = 6) :
    monitorZoneOk pl = true ↔
      field pl 1 1 ≤ 4 ∧ field pl 2 2 ≤ 2500 ∧ field pl 4 1 ≤ 60 ∧ 1 ≤ field pl 5 1 ∧ field pl 5 1 ≤ 15 := by
  rw [field_u8 pl 1 (by omega), field_u16 pl 2 (by omega), field_u8 pl 4 (by omega), field_u8 pl 5 (by omega)]
  simp only [monitorZoneOk, Bool.and_eq_true, within_eq_true, decide_eq_true_eq, and_assoc]

theorem monitorLineOk_iff {pl : List Byte} (h : pl.length = 5) :
    monitorLineOk pl = true ↔ (field pl 1 1 = 0 ∨ 10 ≤ field pl 1 1) ∧ 1 ≤ field pl 4 1 := by
  rw [field_u8 pl 1 (by omega), field_u8 pl 4 (by omega)]
  simp only [monitorLineOk, Bool.and_eq_true, Bool.or_eq_true, decide_eq_true_eq]

/-! ### The zone form (R138) -/

theorem monitorModeOf_code (m : MonitorMode) : monitorModeOf (monitorModeCode m) = m := by cases m <;> rfl

theorem monitorModeCode_le (m : MonitorMode) : monitorModeCode m ≤ 4 := by cases m <;> decide

theorem newMonitor_fields {pl : List Byte} {m : MonitorMode} (h : pl.length = 6)
    (hm : field pl 1 1 = monitorModeCode m) (k : ZoneMonitor) :
    newMonitor pl k =
      { k with mode := m, tLimit := field pl 2 2, blankSet := field pl 4 1, deglitchSet := field pl 5 1,
               acted := k.acted && decide (m = k.mode), deglitch := if m = .off then 0 else k.deglitch } := by
  have hmode : monitorModeOf (u8 pl 1) = m := by rw [← field_u8 pl 1 (by omega), hm, monitorModeOf_code]
  rw [newMonitor, hmode, field_u16 pl 2 (by omega), field_u8 pl 4 (by omega), field_u8 pl 5 (by omega)]

/-- No setting is among the flags: the zone form leaves them as they are. -/
theorem monitorFlags_newMonitor (pl : List Byte) (m : Monitor) (z : Fin 4) :
    monitorFlags { m with zones := m.zones.set z (newMonitor pl (m.zones.get z)) } z = monitorFlags m z := by
  simp only [monitorFlags, Four.get_set_same]
  rfl

/-- The zone form in range: the answer's mode and limit are the old ones, its last four bytes as the request leaves them,
of which only the deglitch counter can have changed (log 20). -/
theorem monitorSetZone_taken {pl : List Byte} {z : Fin 4} {s : State} (h : monitorZoneOk pl = true)
    (hz : u8 pl 0 = z.val) :
    let k := s.monitor.zones.get z
    monitorSetZone pl s =
      okWith (byte1 z.val ++ byte1 (monitorModeCode k.mode) ++ bytes2 k.tLimit ++ byte1 (monitorFlags s.monitor z) ++
        byte1 k.blank ++ byte1 (newMonitor pl k).deglitch ++ byte1 (tripHoldCode k.hold))
        (s.onZoneMonitor z (newMonitor pl)) := by
  unfold monitorSetZone
  dsimp only
  rw [if_neg (by rw [h]; decide), fin4_eq hz, hz, State.onZoneMonitor_monitor, monitorFlags_newMonitor,
    Four.get_set_same]
  rfl

/-! ### The line form (R138, R144, R147) -/

/-- A new probe interval ends a probe test. -/
def endsTest (n : Nat) (m : Monitor) : Bool := decide (n ≠ m.interval ∧ n = 0)

/-- The Monitor Unit under a probe interval, with what it keeps of a test's progress (R144). -/
def intervalTaken (n periods : Nat) (latest : Option Nat) (m : Monitor) : Monitor :=
  { m with
    interval := n, intervalCount := if n = m.interval then m.intervalCount else 0
    test := if endsTest n m then none else m.test, testPeriods := periods, testLatest := latest }

/-- A reading released or left as it is (R111). -/
def readingReleased (b : Bool) (q : Zone) : Zone := { q with held := q.held && !b }

theorem readingReleased_false (q : Zone) : readingReleased false q = q := by
  simp [readingReleased]

theorem readingReleased_true (q : Zone) : readingReleased true q = { q with held := false } := by
  simp [readingReleased]

/-- Releasing one zone's reading, seen from each zone. -/
theorem releaseReading_get (z y : Fin 4) (s : State) :
    (releaseReading z s).zones.get y = readingReleased (decide (some z = some y)) (s.zones.get y) := by
  rw [releaseReading, State.onZone_zones]
  by_cases h : y = z
  · subst h
    rw [Four.get_set_same, decide_eq_true rfl, readingReleased_true]
  · have hne : ¬some z = some y := fun e => h (Option.some.inj e).symm
    rw [Four.get_set_ne _ h, decide_eq_false hne, readingReleased_false]

/-- A changed interval starts the count afresh. -/
def countAfresh (n : Nat) (s : State) : State := s.onMonitor fun m => { m with interval := n, intervalCount := 0 }

section
variable {n : Nat} {s : State}

theorem newInterval_same (h : n = s.monitor.interval) : newInterval n s = s := if_pos h

/-- A changed interval with no test to end. -/
theorem newInterval_counts (h : n ≠ s.monitor.interval) (hkeep : s.monitor.test = none ∨ n ≠ 0) :
    newInterval n s = countAfresh n s := by
  refine (if_neg h).trans ?_
  dsimp only
  split
  · rfl
  · next z htest => exact if_neg (hkeep.resolve_left fun hnone => Option.some_ne_none z (htest.symm.trans hnone))

theorem newInterval_ends {z : Fin 4} (h : n ≠ s.monitor.interval) (hzero : n = 0) (htest : s.monitor.test = some z) :
    newInterval n s = releaseReading z (endTest (countAfresh n s)) := by
  refine (if_neg h).trans ?_
  dsimp only
  rw [htest]
  exact if_pos hzero

end

/-- A new interval changes the Monitor Unit, and the reading of a zone whose test it ends (R144). -/
theorem newInterval_eq (n : Nat) (s : State) :
    ∃ zs periods latest, newInterval n s = { s with zones := zs, monitor := intervalTaken n periods latest s.monitor } ∧
      ∀ y, zs.get y = readingReleased (endsTest n s.monitor && decide (s.monitor.test = some y)) (s.zones.get y) := by
  by_cases hsame : n = s.monitor.interval
  · have hends : endsTest n s.monitor = false := decide_eq_false fun h => h.1 hsame
    refine ⟨s.zones, s.monitor.testPeriods, s.monitor.testLatest, ?_, fun y => ?_⟩
    · rw [newInterval_same hsame, intervalTaken, hends, if_pos hsame, hsame]
      rfl
    · rw [hends, Bool.false_and, readingReleased_false]
  by_cases hkeep : s.monitor.test = none ∨ n ≠ 0
  · have htest : (if endsTest n s.monitor then none else s.monitor.test) = s.monitor.test := by
      rcases hkeep with h | h
      · rw [h, ite_self]
      · exact if_neg fun he => h (of_decide_eq_true he).2
    refine ⟨s.zones, s.monitor.testPeriods, s.monitor.testLatest, ?_, fun y => ?_⟩
    · rw [newInterval_counts hsame hkeep, intervalTaken, if_neg hsame, htest]
      rfl
    · have hnone : (endsTest n s.monitor && decide (s.monitor.test = some y)) = false := by
        rcases hkeep with h | h <;> simp [endsTest, h]
      rw [hnone, readingReleased_false]
  · obtain ⟨htest, hzero⟩ := not_or.mp hkeep
    obtain ⟨z, hz⟩ := Option.ne_none_iff_exists'.mp htest
    have hends : endsTest n s.monitor = true := decide_eq_true ⟨hsame, not_not.mp hzero⟩
    refine ⟨(releaseReading z s).zones, 0, none, ?_, fun y => ?_⟩
    · rw [newInterval_ends hsame (not_not.mp hzero) hz, intervalTaken, if_neg hsame, hends]
      rfl
    · rw [hends, Bool.true_and, hz, releaseReading_get]

/-- The Monitor Unit under new break settings: a running break timer is restarted, or stopped by a v_break_min of 0
(R147). -/
def breakTaken (vBreak time : Nat) (m : Monitor) : Monitor :=
  { m with
    vBreakMin := vBreak, breakTime := time
    breakTimer := if vBreak = 0 then none else m.breakTimer.map fun _ => time * 100 }

/-- The line form in range. -/
theorem monitorSetLine_taken {pl : List Byte} {s : State} (h : monitorLineOk pl = true) :
    ∃ zs periods latest m,
      m = breakTaken (u16 pl 2) (u8 pl 4) (intervalTaken (u8 pl 1) periods latest s.monitor) ∧
      monitorSetLine pl s =
        okWith (byte1 s.monitor.interval ++ byte1 s.monitor.position.val ++ byte1 (orNone255 m.test))
          { s with zones := zs, monitor := m } ∧
      ∀ y, zs.get y =
        readingReleased (endsTest (u8 pl 1) s.monitor && decide (s.monitor.test = some y)) (s.zones.get y) := by
  obtain ⟨zs, periods, latest, hinterval, hzones⟩ := newInterval_eq (u8 pl 1) s
  refine ⟨zs, periods, latest, _, rfl, ?_, hzones⟩
  unfold monitorSetLine
  rw [if_neg (by rw [h]; decide), hinterval]
  rfl

end Sys2Proof.Machine

namespace Sys2Proof.Proofs

open Sys2Proof.Machine Sys2Proof.Safety

/-- Settles O37: the two forms told apart, each with its ranges and its change of the Monitor Unit. -/
theorem monitorSet : Obligations.MonitorSet := by
  intro pl extra c s f n vBreak time hc
  have hexec (hl : pl.length = 5 ∨ pl.length = 6) := exec_monitorSetRow (f := f) s rfl hl hc
  have hindex (hl : pl.length = 5 ∨ pl.length = 6) : field pl 0 1 = u8 pl 0 := field_u8 pl 0 (by omega)
  refine ⟨fun hl h => ?badIndex, fun hl h => ?zoneLength, fun hl h => ?lineLength, fun hl h hbad => ?zoneBadValue,
    fun z m hl hz hm hlimit hblank hlow hhigh => ?zoneTaken, fun hl h hbad => ?lineBadValue,
    fun hl h hn htime => ?lineTaken⟩
  case badIndex => exact (hexec hl).trans (congrArg _ (answeredBy_refused (monitorSet_badIndex (hindex hl ▸ h))))
  case zoneLength =>
    exact (hexec (.inl hl)).trans (congrArg _ (answeredBy_refused (monitorSet_zoneLength (hindex (.inl hl) ▸ h) hl)))
  case lineLength =>
    exact (hexec (.inr hl)).trans (congrArg _ (answeredBy_refused (monitorSet_lineLength (hindex (.inr hl) ▸ h) hl)))
  case zoneBadValue =>
    have hno : ¬monitorZoneOk pl = true := by
      rw [monitorZoneOk_iff hl]
      omega
    exact (hexec (.inr hl)).trans (congrArg _ (answeredBy_refused
      ((monitorSet_zoneForm (hindex (.inr hl) ▸ h) hl).trans (monitorSetZone_badValue hno))))
  case lineBadValue =>
    have hno : ¬monitorLineOk pl = true := by
      rw [monitorLineOk_iff hl]
      omega
    exact (hexec (.inl hl)).trans (congrArg _ (answeredBy_refused
      ((monitorSet_lineForm (hindex (.inl hl) ▸ h) hl).trans (monitorSetLine_badValue hno))))
  case zoneTaken =>
    intro k k'
    have hz' : u8 pl 0 = z.val := (hindex (.inr hl)).symm.trans hz
    have hok : monitorZoneOk pl = true :=
      (monitorZoneOk_iff hl).mpr ⟨hm.trans_le (monitorModeCode_le m), hlimit, hblank, hlow, hhigh⟩
    have hnew : newMonitor pl k = k' := newMonitor_fields hl hm k
    have hblock := (monitorSet_zoneForm (p := f.port) (hz' ▸ Fin.is_le z) hl).trans
      (monitorSetZone_taken (s := received 0x16 f s) hok hz')
    refine (hexec (.inr hl)).trans (congrArg _ ((answeredBy_eq hblock rfl).trans ?_))
    rw [← hnew]
    rfl
  case lineTaken =>
    intro m ended
    have hok : monitorLineOk pl = true := (monitorLineOk_iff hl).mpr ⟨hn, htime⟩
    obtain ⟨zs, periods, latest, m', hm', hline, hzones⟩ := monitorSetLine_taken (s := received 0x16 f s) hok
    have hblock := (monitorSet_lineForm (p := f.port) (hindex (.inl hl) ▸ h) hl).trans hline
    rw [← field_u8 pl 1 (by omega), ← field_u16 pl 2 (by omega), ← field_u8 pl 4 (by omega)] at hm'
    rw [← field_u8 pl 1 (by omega)] at hzones
    have htest : m'.test = if ended then none else m.test := by
      rw [hm']
      exact if_congr decide_eq_true_iff rfl rfl
    refine ⟨_, (hexec (.inl hl)).trans (congrArg _ (answeredBy_eq hblock rfl)), ?_, ?_, ?_, ?_, ?_,
      fun he => htest.trans (if_pos he), fun he => htest.trans (if_neg he), hzones, rfl⟩
    all_goals exact hm' ▸ rfl

end Sys2Proof.Proofs
end

section
/-! SUPPORT. ROLL_GEOMETRY_SET and ROLL_STATUS: the geometry a payload spells with its ranges, the condition of its change,
and a new roll status with its roll-low test and its search (R152 to R155, R158 to R162). -/

namespace Sys2Proof.Machine

open Sys2Proof.Safety

/-! ### ROLL_GEOMETRY_SET (R152) -/

theorem geometryOf_fields {pl : List Byte} (h : pl.length = 48) :
    geometryOf pl =
      { lDf := field pl 0 4, lSf := field pl 4 4, j := field pl 8 4, c := field pl 12 4, a := field pl 16 4,
        wDet := field pl 20 4, tol := field pl 24 4, reserve := field pl 28 4, low := field pl 32 4,
        lK := field pl 36 4, cutOffset := field pl 40 4, vSplice := field pl 44 2, splicePulse := field pl 46 1,
        cutPulse := field pl 47 1 } := by
  rw [geometryOf, field_u32 pl 0 (by omega), field_u32 pl 4 (by omega), field_u32 pl 8 (by omega),
    field_u32 pl 12 (by omega), field_u32 pl 16 (by omega), field_u32 pl 20 (by omega), field_u32 pl 24 (by omega),
    field_u32 pl 28 (by omega), field_u32 pl 32 (by omega), field_u32 pl 36 (by omega), field_u32 pl 40 (by omega),
    field_u16 pl 44 (by omega), field_u8 pl 46 (by omega), field_u8 pl 47 (by omega)]

/-- The ranges of ROLL_GEOMETRY_SET, and the knife behind the tunnel's end (R152). -/
theorem geometryOk_iff (g : RollGeometry) (t : TunnelSettings) :
    geometryOk g t = true ↔
      (1 ≤ g.lDf ∧ g.lDf ≤ 16777215) ∧ (g.lDf < g.lSf ∧ g.lSf ≤ 16777215) ∧ g.j ≤ 65535 ∧
        (g.j ≤ g.c ∧ g.c ≤ 1000000) ∧ g.a ≤ 16777215 ∧ g.wDet ≤ 1000000 ∧ g.tol ≤ g.wDet ∧ g.reserve ≤ 16777215 ∧
        g.low ≤ 16777215 ∧ (1 ≤ g.lK ∧ g.lK ≤ 16777215) ∧ g.cutOffset < g.lK ∧ 1 ≤ g.vSplice ∧
        1 ≤ g.splicePulse ∧ 1 ≤ g.cutPulse ∧ t.lTe + (t.n + 1) * t.pitch ≤ g.lK := by
  simp only [geometryOk, Bool.and_eq_true, within_eq_true, decide_eq_true_eq, Nat.zero_le, true_and, and_assoc]
  exact Iff.rfl

theorem rollIdle_iff (s : State) :
    rollIdle s = true ↔
      Bare s ∧ s.tracker.joints = [] ∧ s.roll.planner.state = .idle ∧ s.roll.cut.state = .idle ∧
        s.roll.planner.jointDue = none := by
  simp only [rollIdle, Bool.and_eq_true, webEmpty_iff, decide_eq_true_eq, List.isEmpty_iff, and_assoc]

section
variable {p : Port} {pl : List Byte} {s : State}

theorem rollGeometrySet_badValue (h : ¬geometryOk (geometryOf pl) s.dose.tunnel = true) :
    rollGeometrySet p pl s = refuse .badValue s := if_pos (Bool.eq_false_iff.mpr h)

theorem rollGeometrySet_notIdle (h : geometryOk (geometryOf pl) s.dose.tunnel = true) (hi : ¬rollIdle s = true) :
    rollGeometrySet p pl s = refuse .wrongState s :=
  (if_neg (by rw [h]; decide)).trans (if_pos (Bool.eq_false_iff.mpr hi))

theorem rollGeometrySet_taken (h : geometryOk (geometryOf pl) s.dose.tunnel = true) (hi : rollIdle s = true) :
    rollGeometrySet p pl s = okWith [] (s.onGeo fun _ => geometryOf pl) :=
  (if_neg (by rw [h]; decide)).trans (if_neg (by rw [hi]; decide))

end

/-! ### ROLL_STATUS (R153, R154) -/

/-- The estimate at the position a status is taken at is the length it gave (R153). -/
theorem estimated_atReport (p : Pos) {n : Nat} (h : n < 2 ^ 31) (low : Bool) : estimated p ⟨p, n, low⟩ = n := by
  show (if reached p (p + BitVec.ofNat 32 n) then 0 else (p + BitVec.ofNat 32 n - p).toNat) = n
  rw [reached_add_dist p h]
  by_cases h0 : n = 0
  · rw [if_pos (decide_eq_true h0), h0]
  · rw [if_neg (by simpa using h0), add_sub_cancel_left, BitVec.toNat_ofNat]
    omega

/-- The roll-low test under a known status (R154). -/
theorem testRollLow_known {s : State} {r : RollStatus} (h : s.roll.planner.status = some r) :
    testRollLow s =
      if s.roll.planner.state = .idle ∧ r.lowRaised = false ∧ estimated s.tracker.pIn r < s.roll.geo.low then
        raise .rollLow (bytes4 (estimated s.tracker.pIn r))
          (s.onPlanner fun p => { p with status := some { r with lowRaised := true } })
      else s := by
  unfold testRollLow
  rw [h]

/-- The part under a new roll status, ROLL_LOW told where `low` says so (R153, R154). -/
def rollReported (n : Nat) (low : Bool) (s : State) : State :=
  { s with
    roll := { s.roll with planner := { s.roll.planner with status := some ⟨s.tracker.pIn, n, low⟩ } },
    router := if low = true then s.router.map (notePort .rollLow (bytes4 n)) else s.router }

/-- ROLL_LOW is told of a new status exactly with the planner IDLE and the length under the limit (R154). -/
theorem testRollLow_rollReported {n : Nat} (h : n < 2 ^ 31) (s : State) :
    testRollLow (rollReported n false s) =
      rollReported n (decide (s.roll.planner.state = .idle ∧ n < s.roll.geo.low)) s := by
  have hest : estimated s.tracker.pIn ⟨s.tracker.pIn, n, false⟩ = n := estimated_atReport _ h _
  have htest := testRollLow_known (s := rollReported n false s) rfl
  by_cases hlow : s.roll.planner.state = .idle ∧ n < s.roll.geo.low
  · rw [htest, if_pos ⟨hlow.1, rfl, hest.symm ▸ hlow.2⟩, decide_eq_true hlow]
    exact congrArg (fun k => raise .rollLow (bytes4 k) _) hest
  · rw [htest, if_neg fun hl => hlow ⟨hl.1, hest ▸ hl.2.2⟩, decide_eq_false hlow]

/-- A search with the planner neither in PLANNING nor in SCHEDULED is none (R160). -/
theorem searched_elsewhere {s : State} (hp : s.roll.planner.state ≠ .planning)
    (hs : s.roll.planner.state ≠ .scheduled) : searched s = s := by
  unfold searched
  dsimp only
  split
  · rfl
  · rw [if_neg hp, if_neg hs]

/-- Under the joint-flag law, and with no bridge that a lost stretch could end, a search is followed by nothing else. -/
theorem settle_search {s : State} (hj : JointFlags s)
    (hb : s.former.state ≠ .bridge ∨ s.roll.planner.state ≠ .scheduled) (hr : s.roll.planner.status ≠ none) :
    settle (s, [.search false]) = searched s := by
  refine Settles.settle (k := 3) ?_ (by decide)
  rw [flagJoints_self hj]
  exact settles_search hj hb hr (Settles.done _)

section
variable {p : Port} {pl : List Byte} {s : State}

theorem rollStatus_badValue (h : 2147483647 < u32 pl 0) : rollStatus p pl s = refuse .badValue s := if_pos h

theorem rollStatus_busy (h : u32 pl 0 ≤ 2147483647) (hf : s.roll.planner.state = .fired) :
    rollStatus p pl s = refuse .busy s := (if_neg (Nat.not_lt.mpr h)).trans (if_pos hf)

/-- A status taken: recorded, tested for ROLL_LOW, then searched under (R153, R154, R160). -/
theorem rollStatus_taken (h : u32 pl 0 ≤ 2147483647) (hf : s.roll.planner.state ≠ .fired) :
    rollStatus p pl s =
      okWith
        (posBytes s.tracker.pIn ++
          posBytes (s.tracker.pIn + BitVec.ofNat 32 (u32 pl 0) - BitVec.ofNat 32 s.roll.geo.reserve))
        (settle (rollReported (u32 pl 0) (decide (s.roll.planner.state = .idle ∧ u32 pl 0 < s.roll.geo.low)) s,
          [.search false])) := by
  rw [← testRollLow_rollReported (by omega) s]
  exact (if_neg (Nat.not_lt.mpr h)).trans (if_neg hf)

end

end Sys2Proof.Machine

namespace Sys2Proof.Proofs

open Sys2Proof.Machine Sys2Proof.Safety

/-- Settles O27: the block's checks in their order, and the geometry a taken request leaves. -/
theorem rollGeometrySet : Obligations.RollGeometrySet := by
  intro pl extra s hlen f g ok still
  have hg : geometryOf pl = g := geometryOf_fields hlen
  have hok : geometryOk (geometryOf pl) s.dose.tunnel = true ↔ ok := by rw [geometryOk_iff, hg]
  have hstill : rollIdle (received 0x1C f s) = true ↔ still := rollIdle_iff (received 0x1C f s)
  have hexec := exec_rollGeometrySet (f := f) s (by rw [hlen]; decide) rfl (by rw [hlen]; rfl)
  refine ⟨fun hbad => ?badValue, fun h hs => ?wrongState, fun h hs => ?taken⟩
  case badValue =>
    exact hexec.trans (congrArg _ (answeredBy_refused
      (rollGeometrySet_badValue (s := received 0x1C f s) (mt hok.mp hbad))))
  case wrongState =>
    exact hexec.trans (congrArg _ (answeredBy_refused
      (rollGeometrySet_notIdle (s := received 0x1C f s) (hok.mpr h) (mt hstill.mp hs))))
  case taken =>
    have hblock := rollGeometrySet_taken (s := received 0x1C f s) (p := f.port) (hok.mpr h) (hstill.mpr hs)
    rw [hg] at hblock
    exact hexec.trans (congrArg _ (answeredBy_eq hblock rfl))

/-- Settles O42: the block's checks in their order; a taken status is recorded with its ROLL_LOW, and the search under it
is told in full under the joint-flag law, which in IDLE and APPROACH is none. -/
theorem rollStatusRequest : Obligations.RollStatusRequest := by
  intro pl extra s hlen f n p deadline status low
  have hn : u32 pl 0 = n := (field_u32 pl 0 (by omega)).symm
  have hexec := exec_rollStatus (f := f) s (by rw [hlen]; decide) rfl (by rw [hlen]; rfl)
  refine ⟨fun hbad => ?badValue, fun h hf => ?busy, fun h hf => ?taken⟩
  case badValue => exact hexec.trans (congrArg _ (answeredBy_refused (rollStatus_badValue (hn ▸ hbad))))
  case busy => exact hexec.trans (congrArg _ (answeredBy_refused (rollStatus_busy (hn ▸ h) hf)))
  case taken =>
    have hblock := rollStatus_taken (s := received 0x30 f s) (p := f.port) (pl := pl) (hn ▸ h) hf
    rw [hn] at hblock
    refine ⟨_, hexec.trans (congrArg _ (answeredBy_eq hblock (settle_ports _))), rfl, fun hst hj => ?still,
      fun hst hj => ?searches⟩
    case still =>
      have hp : p.state ≠ .planning := by rcases hst with h | h <;> rw [h] <;> decide
      have hs : p.state ≠ .scheduled := by rcases hst with h | h <;> rw [h] <;> decide
      rw [settle_search (s := rollReported n _ (received 0x30 f s)) hj (.inr hs) nofun,
        searched_elsewhere (s := rollReported n _ (received 0x30 f s)) hp hs]
      have hrouter : (if decide low = true then s.router.map (notePort .rollLow (bytes4 n)) else s.router) =
          if low then s.router.map (notePort .rollLow (bytes4 n)) else s.router := if_congr decide_eq_true_iff rfl rfl
      rw [← hrouter]
      rfl
    case searches =>
      have hlow : decide low = false := decide_eq_false fun hl => by
        rcases hst with h | ⟨h, -⟩ <;> cases h.symm.trans hl.1
      have hbridge : s.former.state ≠ .bridge ∨ p.state ≠ .scheduled :=
        hst.elim (fun h => .inr (by rw [h]; decide)) fun h => .inl h.2
      rw [show decide ((received 0x30 f s).roll.planner.state = .idle ∧ n < (received 0x30 f s).roll.geo.low) = false
          from hlow, settle_search (s := rollReported n false (received 0x30 f s)) hj hbridge nofun]
      exact searched_answered (rollReported n false s) (received 0x30 f s).ports _

end Sys2Proof.Proofs
end

section
/-! SUPPORT. The speed law (R185, R186): what a change of the hood or of the line state makes of it, every signal and
cascade, and the speed update, whose last steps set the law up again. -/

namespace Sys2Proof.Machine

open Sys2Proof.Safety

/-! ### The law of the Supervisor -/

/-- The speed law reads the Supervisor alone. -/
def Paced (v : Supervisor) : Prop :=
  (v.line ≠ .running ∨ v.hood ≠ .down → v.vRef = 0) ∧ v.speedOut = v.vRef * 4095 / v.set.vMax ∧
    v.vRef ≤ v.vPlanRun ∧ v.vRef ≤ v.vHeat

theorem speed_iff_paced (s : State) : Speed s ↔ Paced s.sup := Iff.rfl

section
variable {v : Supervisor}

/-- At v_ref and output 0 the law holds in every line state and whatever the limits. -/
theorem paced_zero (href : v.vRef = 0) (hout : v.speedOut = 0) : Paced v := by
  refine ⟨fun _ => href, ?_, href ▸ Nat.zero_le _, href ▸ Nat.zero_le _⟩
  rw [href, hout, Nat.zero_mul, Nat.zero_div]

theorem paced_dropSpeed : Paced (dropSpeed v) := paced_zero rfl rfl

/-- Off the run, or with the hood off DOWN, v_ref and the output are 0 (R186). -/
theorem Paced.still (h : Paced v) (hs : v.line ≠ .running ∨ v.hood ≠ .down) : v.vRef = 0 ∧ v.speedOut = 0 := by
  obtain ⟨hstill, hout, -⟩ := h
  have href := hstill hs
  exact ⟨href, by rw [hout, href, Nat.zero_mul, Nat.zero_div]⟩

/-- A change of the hood leaves no speed: DOWN drops it, and off DOWN there was none (R185). -/
theorem paced_hoodChanged (d : HoodState) (h : Paced v) : Paced (hoodChanged d v) := by
  by_cases hd : v.hood = .down
  · exact paced_zero (if_pos hd) (if_pos hd)
  · obtain ⟨href, hout⟩ := h.still (.inr hd)
    exact paced_zero ((if_neg hd).trans href) ((if_neg hd).trans hout)

end

/-! ### Hood and line -/

section
variable {s : State}

/-- The law is one of the line's motion: no change of the hold causes or of the splice limit reaches it. -/
theorem speed_of_motion {t : State} (h : motion t = motion s) (hs : Speed s) : Speed t := by
  have hm : Paced (motion s).1 := hs
  rw [← h] at hm
  exact hm

theorem speed_ite {c : Prop} [Decidable c] {a b : State} (ha : Speed a) (hb : Speed b) :
    Speed (if c then a else b) := by
  split
  · exact ha
  · exact hb

theorem speed_onMonitor {f : Monitor → Monitor} (h : Speed s) : Speed (s.onMonitor f) := h

theorem speed_deriveHood (h : Speed s) : Speed (deriveHood s) := speed_ite h (paced_hoodChanged _ h)

theorem speed_commandHood (down : Bool) (h : Speed s) : Speed (commandHood down s) :=
  speed_deriveHood (s := s.onSup fun v => { v with hoodDown := down }) h

/-- At v_ref and output 0 any line state may be entered. -/
theorem speed_setLine (l : LineState) (href : s.sup.vRef = 0) (hout : s.sup.speedOut = 0) : Speed (setLine l s) :=
  speed_of_motion (motion_setLine l s) (paced_zero href hout)

/-- RUNNING may be entered from any line state: the law leaves a running line the speed it had. -/
theorem speed_setLine_running (h : Speed s) : Speed (setLine .running s) := by
  obtain ⟨hstill, hbounds⟩ := h
  refine speed_of_motion (motion_setLine .running s) (show Paced _ from ⟨fun hs => ?_, hbounds⟩)
  exact hstill (.inr (hs.resolve_left fun hn => hn rfl))

/-- WARMING and LOWERING keep v_ref, so the line must not run; every other entry but RUNNING's drops the speeds. -/
theorem speed_enterLine {l : LineState} (hl : l = .warming ∨ l = .lowering → s.sup.line ≠ .running) (h : Speed s) :
    Speed (enterLine l s).1 := by
  have still : s.sup.line ≠ .running → ∀ l, Speed (setLine l s) := fun hn l => by
    obtain ⟨href, hout⟩ := Paced.still h (.inl hn)
    exact speed_setLine l href hout
  cases l <;> unfold enterLine <;> dsimp only
  case stopped =>
    exact speed_of_motion (motion_leaveBoundaryHold _) (speed_commandHood false (speed_setLine .stopped rfl rfl))
  case warming => exact still (hl (.inl rfl)) .warming
  case lowering => exact speed_commandHood true (still (hl (.inr rfl)) .lowering)
  case running => exact speed_setLine_running h
  case holding =>
    split
    · exact speed_commandHood false (speed_setLine .holding rfl rfl)
    · exact speed_setLine .holding rfl rfl
  case stopping => exact speed_setLine .stopping rfl rfl
  case tripped => exact h

theorem speed_tripLine (c : TripCause) (h : Speed s) : Speed (tripLine c s).1 := by
  unfold tripLine; dsimp only; split
  · exact h
  · dsimp only
    exact speed_onMonitor (speed_commandHood false (speed_setLine .tripped rfl rfl))

theorem speed_stopNow (h : Speed s) : Speed (stopNow s).1 := by
  have hstop : Speed (enterLine .stopping s).1 := speed_enterLine nofun h
  unfold stopNow; split
  case h_4 | h_5 | h_6 | h_7 =>
    dsimp only [followedBy]
    exact hstop
  all_goals exact h

/-- HOLDING is left for LOWERING or RUNNING, at v_ref 0 (R180). -/
theorem speed_causesChanged (h : Speed s) : Speed (causesChanged s).1 := by
  unfold causesChanged; split
  · exact speed_enterLine (l := .holding) nofun h
  · split
    · next hc =>
      refine speed_enterLine (s := s.onSup fun v => { v with hoodDelayTimer := none }) (fun _ hr => ?_) h
      exact LineState.noConfusion (hc.1.symm.trans hr)
    · exact h

/-! ### Signals and cascades -/

/-- Every signal's handling keeps the law: only the line's own signals reach what it reads. -/
theorem speed_handle (g : Sig) (h : Speed s) : Speed (handle g s).1 := by
  by_cases hline : lineSignal g = true
  · rcases lineSignal_cases hline with ⟨c, rfl⟩ | rfl | rfl | rfl | rfl | rfl
    · exact speed_tripLine c h
    · show Speed (hoodSeen s).1
      unfold hoodSeen; split
      · exact speed_enterLine nofun h
      · exact h
    · show Speed (warmTest s).1
      unfold warmTest; split
      · next hw => exact speed_enterLine (fun _ hr => LineState.noConfusion (hw.1.symm.trans hr)) h
      · exact h
    · exact speed_causesChanged h
    · show Speed (stopCheck s).1
      unfold stopCheck; split
      · exact speed_enterLine nofun h
      · exact h
    · show Speed (reportEnd s).1
      unfold reportEnd; split
      · exact speed_enterLine nofun h
      · exact h
  · exact speed_of_motion (motion_handle g s (Bool.eq_false_iff.mpr hline)) h

theorem speed_settle {w : Work} (h : Speed w.1) : Speed (settle w) :=
  settle_keeps (P := Speed) (fun u => speed_of_motion (motion_flagJoints u)) (fun g _ => speed_handle g) w h

/-- A cascade after an effect that leaves the line's motion. -/
theorem speed_settle_motion {w : Work} (hw : motion w.1 = motion s) (h : Speed s) : Speed (settle w) :=
  speed_settle (speed_of_motion hw h)

theorem speed_settle_signals {gs : List Sig} (h : Speed s) : Speed (settle (s, gs)) := speed_settle h

/-! ### The speed update (R185) -/

theorem nextRef_off {v : Supervisor} (h : v.hood ≠ .down) (target : Nat) : nextRef v target = 0 := if_pos h

/-- Steps 5 to 8 set the law up from any state: v_ref does not pass its target, which is 0 off RUNNING. -/
theorem speed_speedSteps (s : State) : Speed (speedSteps s) := by
  have hle : (speedSteps s).sup.vRef ≤ min (if s.sup.line = .running then s.sup.vPlanRun else 0) s.sup.vHeat :=
    nextRef_le _ _
  refine ⟨fun hs => ?still, rfl, ?plan, ?heat⟩
  case still =>
    rcases hs with hline | hhood
    · have hoff : s.sup.line ≠ .running := hline
      rw [if_neg hoff] at hle
      omega
    · exact nextRef_off (v := s.sup) hhood _
  case plan =>
    show (speedSteps s).sup.vRef ≤ s.sup.vPlanRun
    split at hle <;> omega
  case heat =>
    show (speedSteps s).sup.vRef ≤ s.sup.vHeat
    omega

end

end Sys2Proof.Machine
end

section
/-! SUPPORT. The speed law through every command: most leave the line's motion alone; MOTION_SET changes v_max at v_ref 0
only (R176), and a start enters WARMING from STOPPED (R178). -/

namespace Sys2Proof.Machine

open Sys2Proof.Safety

/-! ### Zones and monitors -/

section
variable (z : Fin 4) {s : State}

theorem speed_endTestOf (h : Speed s) : Speed (endTestOf z s) := speed_ite h h

theorem speed_tripZone (h : Speed s) : Speed (tripZone z s) :=
  speed_ite (speed_endTestOf z (s := s.onZone z (stoppedZone .tripped)) h) h

theorem speed_probeFaultZone (h : Speed s) : Speed (probeFaultZone z s) := speed_ite h h

theorem speed_releaseTrip (h : Speed s) : Speed (releaseTrip z s) := speed_ite h h

theorem speed_takeReading (n : Nat) (h : Speed s) : Speed (takeReading z n s) := speed_ite h (speed_ite h h)

theorem speed_monitorSample (h : Speed s) : Speed (monitorSample z s) := by
  have hact : ∀ {u : State}, Speed u → Speed (monitorAct z u) := fun hu => by
    unfold monitorAct; split
    case h_1 | h_2 => exact hu
    all_goals exact speed_tripZone z hu
  exact speed_ite (hact h) h

theorem speed_regulationPeriod (h : Speed s) : Speed (regulationPeriod z s) := by
  have hperiod : Speed (monitorPeriod z (regulateZone z s)) := speed_ite h h
  have hretry : Speed (retryRelease z (monitorPeriod z (regulateZone z s))) :=
    speed_ite (speed_releaseTrip z hperiod) hperiod
  have hjudge : ∀ {u : State}, Speed u → Speed (judgeTest z u) := fun hu => by
    unfold judgeTest; split
    · exact hu
    · exact speed_ite (speed_probeFaultZone z hu) hu
  exact speed_ite (speed_ite hretry (hjudge hretry)) hretry

theorem speed_beginSearch (h : Speed s) : Speed (beginSearch s) := by unfold beginSearch; split <;> exact h

end

/-! ### Requests -/

theorem speed_serve {kind : Byte} {auth : Option Port} {lengthOk : Nat → Bool}
    {block : Port → List Byte → State → State × Answer}
    (hb : ∀ p pl {u : State}, Speed u → Speed (block p pl u).1) {f : Frame} {s : State} (h : Speed s) :
    Speed (serve kind auth lengthOk block f s) := by
  unfold serve
  dsimp only
  split
  · exact h
  · split
    · exact h
    · split
      · exact hb _ _ h
      · exact h

section
variable (p : Port) (pl : List Byte) {s : State}

/-! #### Line, zones and settings -/

theorem speed_statusRead (h : Speed s) : Speed (statusRead p pl s).1 := by
  unfold statusRead; split
  case h_2 | h_5 => split <;> exact h
  case h_7 => exact speed_ite h h
  all_goals exact h

theorem speed_eventTake (h : Speed s) : Speed (eventTake p pl s).1 := by
  unfold eventTake; dsimp only; split <;> exact h

theorem speed_routeSet (h : Speed s) : Speed (routeSet p pl s).1 := by unfold routeSet; split <;> exact h

theorem speed_floorSet (h : Speed s) : Speed (floorSet p pl s).1 := by unfold floorSet; split <;> exact h

theorem speed_presenceSet (h : Speed s) : Speed (presenceSet p pl s).1 := by unfold presenceSet; split <;> exact h

/-- A start finds the line STOPPED, so v_ref is 0 (R178). -/
theorem speed_lineStart (h : Speed s) : Speed (lineStart p pl s).1 := by
  unfold lineStart; split
  · exact h
  · next o _ =>
    split
    · next hmay =>
      obtain ⟨hstopped, -⟩ := (mayStart_iff s).mp hmay
      obtain ⟨d, f, hrun, -⟩ := recipeForRun_eq o.recipe s
      have hwarm : Speed (enterLine .warming (recipeForRun o.recipe s)).1 := by
        rw [hrun]
        exact speed_enterLine (fun _ hr => LineState.noConfusion (hstopped.symm.trans hr)) h
      dsimp only [okWith]
      exact speed_settle hwarm
    · exact h

theorem speed_lineStop (h : Speed s) : Speed (lineStop p pl s).1 := by
  have hstop : Speed (settle (stopNow s)) := speed_settle (speed_stopNow h)
  unfold lineStop; split
  · exact h
  · unfold stopLine; split
    case h_4 | h_5 => exact hstop
    case h_6 | h_7 =>
      split
      · exact h
      · exact hstop
    all_goals exact h

/-- A line reset drops the speeds (R175). -/
theorem speed_lineReset (h : Speed s) : Speed (lineReset p pl s).1 := by
  unfold lineReset; split
  · have hreset : Speed (resetZones (lineResetState s)) := by
      rw [resetZones_eq]
      exact paced_zero rfl rfl
    exact hreset
  · exact h

/-- A new v_max finds the line STOPPED or TRIPPED, its output 0 under every v_max (R176). -/
theorem speed_motionSet (h : Speed s) : Speed (motionSet p pl s).1 := by
  unfold motionSet; dsimp only; split
  · exact h
  · split
    · exact h
    · next hfree =>
      by_cases hmax : (motionSettingsOf pl).vMax = s.sup.set.vMax
      · obtain ⟨hstill, hout, hbounds⟩ := h
        exact ⟨hstill, hout.trans (by rw [← hmax]; rfl), hbounds⟩
      · have hoff : s.sup.line ≠ .running := fun hr => hfree ⟨hmax, by rw [hr]; rfl⟩
        obtain ⟨href, hout⟩ := Paced.still h (.inl hoff)
        exact paced_zero href hout

theorem speed_recipeSet (h : Speed s) : Speed (recipeSet p pl s).1 := by
  unfold recipeSet; dsimp only; split
  · exact h
  · split
    · exact h
    · split <;> exact h

theorem speed_zoneSetRequest (h : Speed s) : Speed (zoneSetRequest p pl s).1 := by
  obtain ⟨m, happly, -⟩ := applyZoneSet_eq (pl := pl) rfl s
  unfold zoneSetRequest; split
  · exact h
  · exact speed_settle (by rw [happly]; exact h)

theorem speed_monitorSet (h : Speed s) : Speed (monitorSet p pl s).1 := by
  have hinterval : Speed (newInterval (u8 pl 1) s) := by
    obtain ⟨zs, periods, latest, heq, -⟩ := newInterval_eq (u8 pl 1) s
    rw [heq]
    exact h
  unfold monitorSet; split
  · exact h
  · split
    · split
      · unfold monitorSetLine; split
        · exact h
        · exact hinterval
      · exact h
    · split
      · unfold monitorSetZone; dsimp only; split <;> exact h
      · exact h

theorem speed_faultClear (h : Speed s) : Speed (faultClear p pl s).1 := by
  have hline : ∀ {u : State}, Speed u → Speed (clearLine u).1 := fun hu => by
    unfold clearLine; split
    · dsimp only [followedBy]
      refine speed_enterLine (l := .stopped) nofun ?_
      exact hu
    · exact hu
  have hzones : Speed (zonesInOrder.foldl clearZone s) := by
    obtain ⟨zs, ms, hframe⟩ := zonesCleared_frame s
    exact (congrArg Speed hframe).mpr h
  unfold faultClear; split
  · exact h
  · dsimp only [okWith]
    exact speed_settle (hline hzones)

theorem speed_formerSet (h : Speed s) : Speed (formerSet p pl s).1 := by
  unfold formerSet; dsimp only; split
  · exact h
  · split
    · exact h
    · split <;> exact h

theorem speed_tunnelSet (h : Speed s) : Speed (tunnelSet p pl s).1 := by
  unfold tunnelSet; dsimp only; split
  · exact h
  · split <;> exact h

theorem speed_giveEstop (b : Bool) (h : Speed s) : Speed (giveEstop b s).1 := by rw [giveEstop_leaves]; exact h

theorem speed_inputSet (h : Speed s) : Speed (inputSet p pl s).1 := by
  unfold inputSet; dsimp only; split
  · exact h
  · split
    · exact h
    · rw [refilterSwitch_all]
      exact speed_settle (speed_giveEstop (s := rewired (inputSettingsOf pl) s) _ h)

theorem speed_rollGeometrySet (h : Speed s) : Speed (rollGeometrySet p pl s).1 := by
  unfold rollGeometrySet; dsimp only; split
  · exact h
  · split <;> exact h

/-! #### Patterns, orders and reports -/

theorem speed_patternBegin (h : Speed s) : Speed (patternBegin p pl s).1 := by
  unfold patternBegin; dsimp only; split
  · exact h
  · split
    · exact h
    · split <;> exact h

theorem speed_patternSteps (h : Speed s) : Speed (patternSteps p pl s).1 := by
  unfold patternSteps; split
  · exact h
  · dsimp only; split <;> exact h

theorem speed_patternEnd (h : Speed s) : Speed (patternEnd p pl s).1 := by
  unfold patternEnd; split
  · exact h
  · dsimp only; split <;> exact h

theorem speed_patternDelete (h : Speed s) : Speed (patternDelete p pl s).1 := by
  unfold patternDelete; dsimp only; split
  · exact h
  · split
    case h_2 => split <;> exact h
    all_goals exact h

theorem speed_orderQueue (h : Speed s) : Speed (orderQueue p pl s).1 := by
  unfold orderQueue; split
  · exact h
  · split
    · exact h
    · split
      · exact h
      · split
        · exact h
        · exact speed_settle_signals h

theorem speed_orderCancel (h : Speed s) : Speed (orderCancel p pl s).1 := by
  unfold orderCancel; split
  · exact h
  · split
    · exact h
    · split
      · split
        · exact h
        · split
          · exact h
          · exact speed_settle_motion (motion_retire s 1) h
      · exact speed_settle_motion (motion_queuedFell _) h

theorem speed_reportTake (h : Speed s) : Speed (reportTake p pl s).1 := by
  have hwaiting : ∀ {u : State}, Speed u → Speed (makeWaitingReport u).1 := fun {u} hu => by
    unfold makeWaitingReport; split
    · exact hu
    · split
      · exact speed_of_motion (motion_queueReport u _) hu
      · exact hu
  unfold reportTake; split
  · exact h
  · exact speed_settle (hwaiting h)

theorem speed_queueLowSet (h : Speed s) : Speed (queueLowSet p pl s).1 := by unfold queueLowSet; split <;> exact h

/-! #### The roll -/

theorem speed_rollStatus (h : Speed s) : Speed (rollStatus p pl s).1 := by
  unfold rollStatus; split
  · exact h
  · split
    · exact h
    · exact speed_settle_motion (motion_testRollLow _) h

theorem speed_spliceArm (h : Speed s) : Speed (spliceArm p pl s).1 := by
  unfold spliceArm; split
  · exact h
  · split
    · exact h
    · exact speed_settle_signals h

theorem speed_spliceForce (h : Speed s) : Speed (spliceForce p pl s).1 := by
  unfold spliceForce; split
  · exact h
  · split
    · exact h
    · exact speed_of_motion (motion_forceSplice _) h

theorem speed_spliceCancel (h : Speed s) : Speed (spliceCancel p pl s).1 := by
  unfold spliceCancel; split
  case h_4 => exact h
  case h_5 => split <;> exact h
  all_goals exact speed_settle_motion (motion_withdrawSplice s none) h

theorem speed_cutRequest (h : Speed s) : Speed (cutRequest p pl s).1 := by
  have hflag : ∀ n, Speed (flagCutThrough n s) := fun n => by unfold flagCutThrough; split <;> exact h
  unfold cutRequest; split
  · exact h
  · split
    · unfold cutNextEnd; split
      · exact h
      · exact speed_of_motion (motion_chooseTarget _) h
    · unfold cutForce; split
      · exact h
      · exact hflag _

theorem speed_withdrawCut (h : Speed s) : Speed (withdrawCut s) := speed_ite h h

theorem speed_cutCancel (h : Speed s) : Speed (cutCancel p pl s).1 := by
  unfold cutCancel; split
  · exact speed_withdrawCut h
  · exact h
  · split <;> exact h

/-! ### Counts, switches and timers -/

theorem speed_portLost (h : Speed s) : Speed (portLost p s).1 := by
  cases p
  case line => exact speed_stopNow h
  case pattern => exact h
  case roll => exact speed_withdrawCut h

theorem speed_outfeedForward (h : Speed s) : Speed (outfeedForward s).1 := by
  have hcut : ∀ {u : State}, Speed u → Speed (cutCompare u) := fun hu => by
    unfold cutCompare; split
    · exact hu
    · split <;> exact hu
  have hshift : ∀ {u : State}, Speed u → Speed (shiftCells u) := fun {u} hu => by
    have hjudge : ∀ c, Speed (judgeCell c u) := fun c => by
      unfold judgeCell offerCell; split
      · split <;> exact hu
      · exact hu
    exact speed_ite (hjudge _) hu
  exact hcut (hshift h)

/-- A hood switch derives the hood state again (R177); no other edge reaches the Supervisor but for the splice limit. -/
theorem speed_takeLevel (sw : Switch) (h : Speed s) : Speed (takeLevel sw s) := by
  have hoffer : ∀ (x : Pos) {u : State}, Speed u → Speed (offerCapture x u) := fun x u hu => by
    unfold offerCapture; split
    · exact speed_ite (speed_of_motion (motion_leaveFired _) hu) hu
    · exact hu
  refine speed_ite h (speed_settle ?_)
  cases sw <;> dsimp only [edgeEffect] <;> split
  case hoodUp.isFalse | hoodDown.isTrue => exact speed_deriveHood h
  case jointDetector.isTrue => exact hoffer _ (u := onFilter .jointDetector _ s) h
  all_goals exact h

theorem speed_doseSample (h : Speed s) : Speed (doseSample s) := by
  unfold doseSample; split
  · exact h
  · split <;> exact h

end

/-! ### Commands and steps -/

/-- Every command with all that follows from it keeps the speed law. -/
theorem speed_exec {c : Instr} {s t : State} (hs : Speed s) (h : exec c s = .next t) : Speed t := by
  cases c
  case incompleteFrame p bytes =>
    simp only [exec, execIncompleteFrame] at h
    split at h <;> cases h
    exact hs
  case unknownKindFrame kind f =>
    simp only [exec, execUnknownKindFrame] at h
    split at h <;> cases h
    exact speed_ite hs hs
  all_goals obtain rfl := Host.Outcome.next.inj h
  case deviceReset => exact speed_powerOn s.pins
  case emptyTransaction p => exact hs
  case nop f => exact speed_serve (fun _ _ _ h => h) hs
  case lineView | zoneView | formerView | queueView | panelView | mapView | spliceView | portView =>
    exact speed_serve speed_statusRead hs
  case eventTake f => exact speed_serve speed_eventTake hs
  case routeSet f => exact speed_serve speed_routeSet hs
  case floorSet f => exact speed_serve speed_floorSet hs
  case presenceSet f => exact speed_serve speed_presenceSet hs
  case lineStart f => exact speed_serve speed_lineStart hs
  case lineStopImmediate | lineStopEndOfPanel => exact speed_serve speed_lineStop hs
  case lineReset f => exact speed_serve speed_lineReset hs
  case speedSet f => exact speed_serve (block := speedSet) (fun _ _ _ h => h) hs
  case recipeSet f => exact speed_serve speed_recipeSet hs
  case zoneSet | zoneDisable | zoneArm | zoneEnable => exact speed_serve speed_zoneSetRequest hs
  case monitorSetZone | monitorSetLine => exact speed_serve speed_monitorSet hs
  case faultClear f => exact speed_serve speed_faultClear hs
  case formerSet f => exact speed_serve speed_formerSet hs
  case tunnelSet f => exact speed_serve speed_tunnelSet hs
  case motionSet f => exact speed_serve speed_motionSet hs
  case inputSet f => exact speed_serve speed_inputSet hs
  case rollGeometrySet f => exact speed_serve speed_rollGeometrySet hs
  case patternBegin f => exact speed_serve speed_patternBegin hs
  case patternSteps f => exact speed_serve speed_patternSteps hs
  case patternEnd f => exact speed_serve speed_patternEnd hs
  case patternDelete f => exact speed_serve speed_patternDelete hs
  case orderQueue f => exact speed_serve speed_orderQueue hs
  case orderCancel f => exact speed_serve speed_orderCancel hs
  case reportTake f => exact speed_serve speed_reportTake hs
  case queueLowSet f => exact speed_serve speed_queueLowSet hs
  case rollStatus f => exact speed_serve speed_rollStatus hs
  case spliceArm f => exact speed_serve speed_spliceArm hs
  case spliceForce f => exact speed_serve speed_spliceForce hs
  case spliceCancel f => exact speed_serve speed_spliceCancel hs
  case cutRequestNextEnd | cutRequestForce => exact speed_serve speed_cutRequest hs
  case cutCancel f => exact speed_serve speed_cutCancel hs
  case presenceExpiry p => exact speed_ite (speed_settle (speed_portLost p (s := presenceLost p s) hs)) hs
  case infeedCount a b => exact speed_ite hs (speed_settle_signals hs)
  case outfeedCount a b =>
    dsimp only
    split
    · exact hs
    · exact speed_settle (speed_outfeedForward hs)
    · exact speed_settle hs
  case switchPinChange sw high =>
    exact speed_ite hs (speed_ite (speed_takeLevel sw (s := s.onPins (setPin sw high)) hs) hs)
  case filterExpiry sw => exact speed_ite (speed_takeLevel sw hs) hs
  case estopChange high => exact speed_settle (speed_giveEstop (s := s.onPins fun p => { p with estop := high }) _ hs)
  case feedTimeout | tuckEnd | pressEnd | bladeJam | breakTimerExpiry | hoodTimerExpiry =>
    exact speed_ite (speed_settle_signals hs) hs
  case hoodDelayExpiry =>
    exact speed_ite (speed_settle (speed_commandHood false
      (s := s.onSup fun v => { v with hoodDelayTimer := none }) hs)) hs
  case probeSample z n => exact speed_settle (speed_monitorSample z (speed_takeReading z n hs))
  case regulationPeriod z => exact speed_settle (speed_regulationPeriod z hs)
  case valveWindowStart | valveClose | splicePulseEnd => exact hs
  case doseSample => exact speed_doseSample (s := sampleTimed s) hs
  case speedUpdate => exact speed_speedSteps _
  case probeCheckTimer => exact speed_ite hs (speed_ite (speed_beginSearch hs) hs)
  case cutPulseEnd => exact speed_ite hs hs

/-- A millisecond that passes reaches the Supervisor's timers only; every other step is a command's. -/
theorem speed_step {s t : State} (hs : Speed s) (h : step s = .next t) : Speed t := by
  rcases step_cases h with ⟨-, rfl⟩ | ⟨-, c, -, hc⟩ | ⟨c, rest, -, hc⟩
  · exact hs
  · exact speed_exec (s := s.nextFree) hs hc
  · exact speed_exec (s := s.withPending rest) hs hc

end Sys2Proof.Machine

namespace Sys2Proof.Proofs

open Sys2Proof.Machine Sys2Proof.Safety

/-- Settles O55: leaving RUNNING or the hood DOWN drops the speeds, v_max is changed at v_ref 0 only, and a speed update
sets the law up under its own limits. -/
theorem speedKept : Obligations.SpeedKept := fun _ _ => speed_step

end Sys2Proof.Proofs
end

section
/-! SUPPORT. MOTION_SET and SPEED_SET: the settings a payload spells with their ranges, and the two requests from block to
answer (R176). -/

namespace Sys2Proof.Machine

open Sys2Proof.Safety

/-! ### MOTION_SET -/

theorem motionSettingsOf_fields {pl : List Byte} (h : pl.length = 7) :
    motionSettingsOf pl = ⟨field pl 0 2, field pl 2 2, field pl 4 1, field pl 5 1⟩ := by
  rw [motionSettingsOf, field_u16 pl 0 (by omega), field_u16 pl 2 (by omega), field_u8 pl 4 (by omega),
    field_u8 pl 5 (by omega)]

theorem motionSettingsOk_iff {pl : List Byte} (h : pl.length = 7) (m : MotionSettings) :
    motionSettingsOk pl m = true ↔
      1 ≤ m.vMax ∧ 1 ≤ m.accel ∧ (1 ≤ m.hoodTimeout ∧ m.hoodTimeout ≤ 30) ∧ field pl 6 1 = 0 := by
  rw [field_u8 pl 6 (by omega)]
  simp only [motionSettingsOk, Bool.and_eq_true, decide_eq_true_eq, within_eq_true, and_assoc]

theorem standby_iff (l : LineState) : standby l = true ↔ l = .stopped ∨ l = .tripped := by
  simp only [standby, Bool.or_eq_true, decide_eq_true_eq]

section
variable {p : Port} {pl : List Byte} {s : State}

theorem motionSet_badValue (h : ¬motionSettingsOk pl (motionSettingsOf pl) = true) :
    motionSet p pl s = refuse .badValue s := if_pos (Bool.eq_false_iff.mpr h)

/-- A change of v_max on a line that is neither STOPPED nor TRIPPED. -/
theorem motionSet_wrongState (h : motionSettingsOk pl (motionSettingsOf pl) = true)
    (hmax : (motionSettingsOf pl).vMax ≠ s.sup.set.vMax) (hl : ¬(s.sup.line = .stopped ∨ s.sup.line = .tripped)) :
    motionSet p pl s = refuse .wrongState s :=
  (if_neg (by rw [h]; decide)).trans (if_pos ⟨hmax, Bool.eq_false_iff.mpr fun hs => hl ((standby_iff _).mp hs)⟩)

theorem motionSet_taken (h : motionSettingsOk pl (motionSettingsOf pl) = true)
    (hfree : (motionSettingsOf pl).vMax = s.sup.set.vMax ∨ s.sup.line = .stopped ∨ s.sup.line = .tripped) :
    motionSet p pl s = okWith [] (s.onSup fun v => { v with set := motionSettingsOf pl }) := by
  refine (if_neg (by rw [h]; decide)).trans (if_neg fun hn => ?_)
  rcases hfree with hmax | hl
  · exact hn.1 hmax
  · exact Bool.false_ne_true (hn.2.symm.trans ((standby_iff _).mpr hl))

/-! ### SPEED_SET -/

theorem speedSet_upToMax (h : u16 pl 0 ≤ s.sup.set.vMax) :
    speedSet p pl s = okWith (bytes2 (u16 pl 0)) (s.onSup fun v => { v with vReq := u16 pl 0 }) := by
  unfold speedSet
  rw [Nat.min_eq_left h, if_pos h]
  rfl

theorem speedSet_aboveMax (h : s.sup.set.vMax < u16 pl 0) :
    speedSet p pl s = (s.onSup fun v => { v with vReq := s.sup.set.vMax }, ⟨.clamped, bytes2 s.sup.set.vMax⟩) := by
  unfold speedSet
  rw [Nat.min_eq_right h.le, if_neg (Nat.not_le.mpr h)]

theorem u16_pair (v0 v1 : Byte) : u16 [v0, v1] 0 = v0.toNat + 256 * v1.toNat := rfl

/-- The two bytes that spelled a number, back from it. -/
theorem bytes2_pair (v0 v1 : Byte) : bytes2 (v0.toNat + 256 * v1.toNat) = [v0, v1] := by
  have hlow : BitVec.ofNat 8 (v0.toNat + 256 * v1.toNat) = v0 := by
    apply BitVec.eq_of_toNat_eq
    rw [BitVec.toNat_ofNat]
    omega
  have hhigh : BitVec.ofNat 8 ((v0.toNat + 256 * v1.toNat) / 256) = v1 := by
    apply BitVec.eq_of_toNat_eq
    rw [BitVec.toNat_ofNat]
    omega
  rw [bytes2, leBytes, leBytes, leBytes, hlow, hhigh]

/-- The answer around a change of the Supervisor. -/
theorem answeredBy_sup {kind : Byte} {block : Port → List Byte → State → State × Answer} {f : Frame}
    {g : Supervisor → Supervisor} {a : Answer}
    (h : block f.port f.payload (received kind f s) = ((received kind f s).onSup g, a)) :
    answeredBy kind block f s = answered kind f a.status a.payload { s with sup := g s.sup } :=
  answeredBy_eq (t := (received kind f s).onSup g) h rfl

end

end Sys2Proof.Machine

namespace Sys2Proof.Proofs

open Sys2Proof.Machine Sys2Proof.Safety

/-- Settles O28: the answers of MOTION_SET in the order of its checks, and both sides of v_max for SPEED_SET. -/
theorem motionAndSpeedSet : Obligations.MotionAndSpeedSet := by
  refine ⟨fun pl extra s hlen => ?motion, fun v0 v1 extra s => ?speed⟩
  case motion =>
    intro f m ok free
    have hm : motionSettingsOf pl = m := motionSettingsOf_fields hlen
    have hok : motionSettingsOk pl (motionSettingsOf pl) = true ↔ ok := by rw [motionSettingsOk_iff hlen, hm]
    have hexec := exec_motionSet (f := f) s (by rw [hlen]; decide) rfl (by rw [hlen]; rfl)
    refine ⟨fun hbad => ?badValue, fun h hn => ?wrongState, fun h hfree => ?taken⟩
    case badValue => exact hexec.trans (congrArg _ (answeredBy_refused (motionSet_badValue (mt hok.mp hbad))))
    case wrongState =>
      obtain ⟨hmax, hl⟩ := not_or.mp hn
      exact hexec.trans (congrArg _ (answeredBy_refused (motionSet_wrongState (hok.mpr h) (hm ▸ hmax) hl)))
    case taken =>
      have htaken := answeredBy_sup (motionSet_taken (s := received 0x1A f s) (p := f.port) (hok.mpr h) (hm ▸ hfree))
      rw [hm] at htaken
      exact hexec.trans (congrArg _ htaken)
  case speed =>
    intro f v
    have hexec := exec_speedSet (f := f) s (Nat.le_add_left 2 58) rfl rfl
    refine ⟨fun h => ?ok, fun h => ?clamped⟩
    case ok =>
      have hblock := answeredBy_sup (speedSet_upToMax (s := received 0x13 f s) (p := f.port) (pl := f.payload) h)
      rw [u16_pair, bytes2_pair] at hblock
      exact hexec.trans (congrArg _ hblock)
    case clamped =>
      exact hexec.trans (congrArg _
        (answeredBy_sup (speedSet_aboveMax (s := received 0x13 f s) (p := f.port) (pl := f.payload) h)))

end Sys2Proof.Proofs
end

section
/-! SUPPORT. LINE_STOP: the requests a line state refuses, takes without a change, keeps pending, or takes at once
(R181, R182). -/

namespace Sys2Proof.Machine

open Sys2Proof.Safety

/-- Work in formation (R181). -/
theorem workInFormation_iff (f : Former) :
    workInFormation f = true ↔
      f.panel ≠ none ∨ f.state = .bridge ∨ f.state = .held ∧ f.resume = some .bridge := by
  simp only [workInFormation, bridgeRunning, Bool.or_eq_true, Bool.and_eq_true, decide_eq_true_eq,
    Option.isSome_iff_ne_none]

section
variable {p : Port} {m : Byte} {s : State}

theorem lineStop_badValue (h : 1 < m.toNat) : lineStop p [m] s = refuse .badValue s := if_pos h

/-- A kind in range is IMMEDIATE or END_OF_PANEL. -/
theorem lineStop_inRange (h : m.toNat ≤ 1) : lineStop p [m] s = stopLine (decide (m = 1)) s := by
  have hone : m.toNat = 1 ↔ m = 1 := by rw [← BitVec.toNat_inj]; rfl
  have hkind : decide (u8 [m] 0 = 1) = decide (m = 1) := decide_eq_decide.mpr hone
  exact (if_neg (Nat.not_lt.mpr h)).trans (congrArg (fun b => stopLine b s) hkind)

theorem stopLine_standing (b : Bool) (h : s.sup.line = .stopped ∨ s.sup.line = .tripped) :
    stopLine b s = refuse .wrongState s := by
  rcases h with h | h <;> rw [stopLine, h]

theorem stopLine_stopping (b : Bool) (h : s.sup.line = .stopping) : stopLine b s = okWith [] s := by rw [stopLine, h]

/-- An END_OF_PANEL stop waits for the work in formation. -/
theorem stopLine_pending (h : s.sup.line = .running ∨ s.sup.line = .holding) (hw : workInFormation s.former = true) :
    stopLine true s = (s.onSup fun v => { v with stopPending := true }, ⟨.accepted, []⟩) := by
  rcases h with h | h <;> rw [stopLine, h] <;> exact if_pos hw

/-- Any other stop of a moving line is taken at once. -/
theorem stopLine_now {b : Bool}
    (h : s.sup.line = .warming ∨ s.sup.line = .lowering ∨
      (s.sup.line = .running ∨ s.sup.line = .holding) ∧ ¬(b = true ∧ workInFormation s.former = true)) :
    stopLine b s = okWith [] (settle (stopNow s)) := by
  rcases h with h | h | ⟨h, hn⟩
  · rw [stopLine, h]
  · rw [stopLine, h]
  · rw [← Bool.and_eq_true] at hn
    rcases h with h | h <;> rw [stopLine, h] <;> exact if_neg hn

end

/-- Both rows of LINE_STOP do what their payload says. -/
theorem exec_lineStopRow {c : Instr} {m : Byte} {extra : List Byte} (s : State)
    (h : c = .lineStopImmediate ⟨.line, [m], extra⟩ ∨ c = .lineStopEndOfPanel ⟨.line, [m], extra⟩) :
    exec c s = .next (answeredBy 0x11 lineStop ⟨.line, [m], extra⟩ s) := by
  rcases h with rfl | rfl
  · exact exec_lineStopImmediate s (Nat.le_add_left 1 59) rfl rfl
  · exact exec_lineStopEndOfPanel s (Nat.le_add_left 1 59) rfl rfl

end Sys2Proof.Machine

namespace Sys2Proof.Proofs

open Sys2Proof.Machine Sys2Proof.Safety

/-- Settles O32: the answer of each line state, and the halted line that a stop taken at once leaves. -/
theorem lineStop : Obligations.LineStop := by
  intro m extra c s f l work hc
  have hexec := exec_lineStopRow s hc
  have hwork : workInFormation s.former = true ↔ work := workInFormation_iff s.former
  refine ⟨fun hm => ?badValue, fun hm hl => ?standing, fun hm hl => ?stopping, fun hm hl hw => ?pending,
    fun hm hl => ?now⟩
  case badValue => exact hexec.trans (congrArg _ (answeredBy_refused (lineStop_badValue hm)))
  case standing =>
    exact hexec.trans (congrArg _ (answeredBy_refused
      ((lineStop_inRange hm).trans (stopLine_standing (s := received 0x11 f s) _ hl))))
  case stopping =>
    exact hexec.trans (congrArg _ (answeredBy_same (a := ⟨.ok, []⟩)
      ((lineStop_inRange hm).trans (stopLine_stopping (s := received 0x11 f s) _ hl))))
  case pending =>
    subst hm
    have hend : Machine.lineStop f.port [1] (received 0x11 f s) = stopLine true (received 0x11 f s) :=
      lineStop_inRange (m := 1) (by decide)
    exact hexec.trans (congrArg _ (answeredBy_sup (f := f)
      (hend.trans (stopLine_pending (s := received 0x11 f s) hl (hwork.mpr hw)))))
  case now =>
    have hnow : s.sup.line = .warming ∨ s.sup.line = .lowering ∨ (s.sup.line = .running ∨ s.sup.line = .holding) ∧
        ¬(decide (m = 1) = true ∧ workInFormation s.former = true) := by
      refine hl.imp_right (.imp_right fun ⟨hrun, hkind⟩ => ⟨hrun, fun ⟨hend, hw⟩ => ?_⟩)
      rcases hkind with h0 | hn
      · exact absurd (h0.symm.trans (of_decide_eq_true hend)) (by decide)
      · exact hn (hwork.mp hw)
    have hmoving : s.sup.line = .warming ∨ s.sup.line = .lowering ∨ s.sup.line = .running ∨ s.sup.line = .holding :=
      hnow.imp_right (.imp_right And.left)
    have hblock := (lineStop_inRange (p := f.port) hm).trans (stopLine_now (s := received 0x11 f s) hnow)
    have hports := (settle_ports _).trans (ports_stopNow (received 0x11 f s))
    obtain ⟨hline, hplan, href, hout, hpend⟩ := halted_settle_stopNow (s := received 0x11 f s) hmoving
    refine ⟨_, hexec.trans (congrArg _ (answeredBy_eq hblock hports)), rfl, hline, hplan, href, hout, hpend,
      fun hstroke => ?_⟩
    obtain ⟨hformer, hmotion⟩ := settle_stopNow_stroke (s := received 0x11 f s) hstroke hmoving
    exact ⟨congrArg (fun m => m.1.line) hmotion, congrArg (fun m => m.1.prev) hmotion, congrArg Former.state hformer,
      congrArg (fun m => m.1.hoodDelayTimer) hmotion⟩

end Sys2Proof.Proofs
end

section
/-! SUPPORT. What a step runs: the command at the queue's front, or on an empty queue a millisecond or a due expiry
(log 1, log 2). -/

namespace Sys2Proof.Machine

section
variable {s : State}

theorem step_of_pending {c : Instr} {rest : List Instr} (h : s.pending = c :: rest) :
    step s = exec c (s.withPending rest) := by rw [step, h]

theorem step_of_empty (h : s.pending = []) : step s = idle s := by rw [step, h]

theorem idle_of_noneDue (h : dueNow s = []) : idle s = .next (tick s) := by rw [idle, h, pick]

theorem idle_of_pick {c : Instr} (h : pick s (dueNow s) = some c) : idle s = exec c s.nextFree := by rw [idle, h]

end

/-- However the free choice falls, its index is in range: expiries that are due always give one to take (log 2). -/
theorem exists_pick (s : State) {ds : List Instr} (h : ds ≠ []) : ∃ c, pick s ds = some c := by
  match ds, h with
  | [c], _ => exact ⟨c, rfl⟩
  | c :: d :: rest, _ =>
    have hlt : Config.dueChoice s.free % (rest.length + 2) < (c :: d :: rest).length :=
      Nat.mod_lt _ (Nat.succ_pos _)
    exact ⟨_, List.getElem?_eq_getElem hlt⟩

end Sys2Proof.Machine

namespace Sys2Proof.Proofs

open Sys2Proof.Machine

/-- Settles O1: the queue's front is taken before any of the part's own time. -/
theorem stepTakesFront : Obligations.StepTakesFront := fun _ _ _ hq => step_of_pending hq

/-- Settles O2: with nothing due nothing is picked, and with timers due an expiry is always picked from among them. -/
theorem stepIdle : Obligations.StepIdle := by
  intro s hq
  refine ⟨fun hnone => ?millisecond, fun hdue => ?expiry⟩
  case millisecond => exact (step_of_empty hq).trans (idle_of_noneDue hnone)
  case expiry =>
    obtain ⟨c, hc⟩ := exists_pick s hdue
    exact ⟨c, mem_of_pick hc, (step_of_empty hq).trans (idle_of_pick hc)⟩

end Sys2Proof.Proofs
end

section
/-! SUPPORT. ZONE_PURGE and PROBE_OPEN are told by a regulation period's own effect only: nothing that follows from a
look at the settled condition raises them (R117, R145). -/

namespace Sys2Proof.Machine

open Sys2Proof.Safety

/-- The records of the two kinds of event that a regulation period tells. -/
def zoneNews (s : State) : Three (Option EventRecord) × Three (Option EventRecord) :=
  (recordsOf .zonePurge s, recordsOf .probeOpen s)

/-- The signals that may follow from a look at the settled condition. -/
def followsSettled : Sig → Bool
  | .hoodSeen | .warm | .causes | .stopCheck | .reportEnd | .settled _ | .drain | .former | .boundary | .formerRun
  | .formerPause | .bridge | .search _ | .deadline | .approach => true
  | _ => false

/-- They bring none but one another. -/
theorem followsSettled_raises {g g' : Sig} (hg : followsSettled g = true) (h : raises g g' = true) :
    followsSettled g' = true := by
  cases g <;> cases hg <;> cases g' <;> first | rfl | cases h

theorem zoneNews_router {s t : State} (h : t.router = s.router) : zoneNews t = zoneNews s := by
  rw [zoneNews, zoneNews, recordsOf_router h, recordsOf_router h]

theorem zoneNews_ite {c : Prop} [Decidable c] {a b s : State} (ha : zoneNews a = zoneNews s)
    (hb : zoneNews b = zoneNews s) : zoneNews (if c then a else b) = zoneNews s := by
  split
  · exact ha
  · exact hb

section
variable (s : State)

theorem zoneNews_raise {k : EventKind} (d : List Byte) (h1 : k ≠ .zonePurge := by decide)
    (h2 : k ≠ .probeOpen := by decide) : zoneNews (raise k d s) = zoneNews s := by
  rw [zoneNews, zoneNews, recordsOf_raise_ne h1, recordsOf_raise_ne h2]

/-! ### Panels and orders -/

theorem onFormingPanel_router (f : PanelRec → PanelRec) : (onFormingPanel f s).router = s.router := by
  unfold onFormingPanel; split <;> rfl

theorem zoneNews_flagJoints : zoneNews (flagJoints s) = zoneNews s := by rw [flagJoints_frame]; rfl

theorem closePanel_router (n : BitVec 16) (a : Bool) : (closePanel n a s).router = s.router := by
  unfold closePanel cutSeesEnd chooseTarget; split
  · split <;> rfl
  · rfl

theorem zoneNews_retire (k : Nat) : zoneNews (retire k s) = zoneNews s := by
  unfold retire; split
  · rfl
  · exact zoneNews_raise _ _

theorem zoneNews_countPanel : zoneNews (countPanel s) = zoneNews s := by
  unfold countPanel; dsimp only; split
  · rfl
  · exact zoneNews_ite (zoneNews_retire _ _) (zoneNews_ite (zoneNews_retire _ _) rfl)

theorem zoneNews_activate : zoneNews (activate s) = zoneNews s :=
  zoneNews_ite rfl (zoneNews_ite (zoneNews_raise _ _) rfl)

/-! ### The line -/

theorem zoneNews_setCauses (c : HoldCauses) : zoneNews (setCauses c s) = zoneNews s :=
  zoneNews_ite rfl (zoneNews_ite (zoneNews_raise _ _) rfl)

theorem zoneNews_setLine (l : LineState) : zoneNews (setLine l s) = zoneNews s := by
  rw [zoneNews, zoneNews, recordsOf_setLine (by decide), recordsOf_setLine (by decide)]

theorem commandHood_router (b : Bool) : (commandHood b s).router = s.router := by
  unfold commandHood deriveHood; dsimp only; split <;> rfl

theorem zoneNews_commandHood (b : Bool) : zoneNews (commandHood b s) = zoneNews s :=
  zoneNews_router (commandHood_router s b)

theorem zoneNews_leaveBoundaryHold : zoneNews (leaveBoundaryHold s) = zoneNews s :=
  zoneNews_ite (zoneNews_setCauses _ _) rfl

theorem zoneNews_enterLine (l : LineState) : zoneNews (enterLine l s).1 = zoneNews s := by
  unfold enterLine
  cases l <;> dsimp only
  case stopped => rw [zoneNews_leaveBoundaryHold, zoneNews_commandHood, zoneNews_setLine]; rfl
  case warming => exact zoneNews_setLine s _
  case lowering => rw [zoneNews_commandHood, zoneNews_setLine]
  case running => exact zoneNews_setLine s _
  case holding =>
    refine zoneNews_ite ?_ ?_
    · rw [zoneNews_commandHood, zoneNews_setLine]; rfl
    · rw [zoneNews_setLine]; rfl
  case stopping => rw [zoneNews_setLine]; rfl
  case tripped => rfl

theorem zoneNews_causesChanged : zoneNews (causesChanged s).1 = zoneNews s := by
  unfold causesChanged; split
  · exact zoneNews_enterLine _ _
  · split
    · exact zoneNews_enterLine _ _
    · rfl

theorem zoneNews_drainTest : zoneNews (drainTest s).1 = zoneNews s := by
  unfold drainTest; split
  · rfl
  · split
    · obtain ⟨zs, ms, h⟩ := retarget_eq (s.onDose fun d =>
        { d with tunnelRecipe := some _, pendingRecipe := none })
      exact zoneNews_router (by rw [h]; rfl)
    · rfl

/-! ### The former -/

theorem enterStep_router (i : Nat) : (enterStep i s).router = s.router := by
  unfold enterStep; split
  · rfl
  · split <;> rfl

theorem afterStroke_router : (afterStroke s).router = s.router := by
  unfold afterStroke; split
  · split
    · rfl
    · split
      · rfl
      · split <;> rfl
  · rfl

theorem zoneNews_startStroke : zoneNews (startStroke s).1 = zoneNews s := by
  have hfeed : ∀ st u, zoneNews (enterFeed st u) = zoneNews u := fun st u =>
    zoneNews_ite (zoneNews_router (onFormingPanel_router _ _)) rfl
  have hlate : ∀ u, zoneNews (recordLate u) = zoneNews u := fun u =>
    zoneNews_ite ((zoneNews_raise _ _).trans (zoneNews_router (onFormingPanel_router _ _))) rfl
  unfold startStroke; split
  · rfl
  · exact (hfeed _ _).trans (hlate _)

theorem zoneNews_endRetract : zoneNews (endRetract s).1 = zoneNews s := by
  have hmoved : zoneNews (afterStroke (onFormingPanel (fun r => { r with formed := bump16 r.formed })
      (s.onFormer fun f => { f with timer := none }))) = zoneNews s :=
    zoneNews_router ((afterStroke_router _).trans (onFormingPanel_router _ _))
  unfold endRetract; split
  · rfl
  · dsimp only; split
    · exact hmoved
    · split
      · exact (zoneNews_startStroke _).trans hmoved
      · exact hmoved

theorem zoneNews_endFollow : zoneNews (endFollow s).1 = zoneNews s := by
  unfold endFollow; split
  · exact zoneNews_router (enterStep_router _ _)
  · split
    · split
      · rfl
      · exact zoneNews_router (enterStep_router _ _)
    · rfl
  · unfold endPanel; split
    · rfl
    · exact (zoneNews_countPanel _).trans (zoneNews_router (closePanel_router _ _ _))
  all_goals rfl

theorem zoneNews_noteLate : zoneNews (noteLate s) = zoneNews s := zoneNews_ite rfl rfl

theorem zoneNews_formerTest : zoneNews (formerTest s).1 = zoneNews s := by
  unfold formerTest; split
  case h_1 | h_2 | h_3 =>
    split
    · exact zoneNews_endFollow s
    · rfl
  case h_4 =>
    split
    · exact zoneNews_startStroke s
    · rfl
  case h_5 => exact zoneNews_ite (zoneNews_noteLate s) (zoneNews_noteLate s)
  case h_6 | h_7 => exact zoneNews_noteLate s
  case h_8 =>
    split
    · exact zoneNews_endRetract s
    · exact zoneNews_noteLate s
  case h_9 => exact zoneNews_ite rfl rfl
  case h_10 | h_11 => rfl

theorem zoneNews_startPanel : zoneNews (startPanel s) = zoneNews s := by
  have htaken : zoneNews (activate (withdrawCauses s)) = zoneNews s :=
    (zoneNews_activate _).trans (zoneNews_setCauses _ _)
  have hcut : ∀ u, (cutSeesStart u).router = u.router := fun u => by
    obtain ⟨c, hc⟩ := cutSeesStart_eq u
    rw [hc]
  unfold startPanel; dsimp only; split
  · exact htaken
  · exact (zoneNews_router (hcut _)).trans htaken

theorem zoneNews_boundaryTest : zoneNews (boundaryTest s).1 = zoneNews s := by
  have hheld : ∀ h u, zoneNews (holdFor h u) = zoneNews u := fun h u => zoneNews_setCauses _ _
  have hidle : zoneNews (restIdle s) = zoneNews s := zoneNews_setCauses _ _
  unfold boundaryTest; split
  · rfl
  · split
    · exact (hheld _ _).trans (zoneNews_ite rfl (zoneNews_raise _ _))
    · split
      · split
        · exact hheld _ _
        · split
          · exact zoneNews_setCauses _ _
          · exact hidle
      · split
        · exact hheld _ _
        · split
          · exact zoneNews_startPanel s
          · exact hidle

theorem zoneNews_formerRun : zoneNews (formerRun s).1 = zoneNews s := by
  unfold formerRun; split
  · rfl
  · split
    case h_2 =>
      split
      · unfold resumeWork; dsimp only; split
        · exact zoneNews_startStroke _
        · rfl
      · rfl
    all_goals rfl

theorem zoneNews_formerPause : zoneNews (formerPause s).1 = zoneNews s := by
  unfold formerPause; split
  case h_6 => exact zoneNews_leaveBoundaryHold s
  all_goals rfl

end

/-- No signal that may follow from a look at the settled condition tells of a purge or an open probe. -/
theorem zoneNews_handle {g : Sig} (hg : followsSettled g = true) (s : State) :
    zoneNews (handle g s).1 = zoneNews s := by
  have hline : ∀ {c : Prop} [Decidable c] (l : LineState),
      zoneNews (if c then enterLine l s else quiet s).1 = zoneNews s := fun l => by
    split
    · exact zoneNews_enterLine s l
    · rfl
  cases g
  case hoodSeen | warm | stopCheck | reportEnd => exact hline _
  case causes => exact zoneNews_causesChanged s
  case settled b => exact Prod.ext (recordsOf_reportSettled s (by decide) b) (recordsOf_reportSettled s (by decide) b)
  case drain => exact zoneNews_drainTest s
  case former => exact zoneNews_formerTest s
  case boundary => exact zoneNews_boundaryTest s
  case formerRun => exact zoneNews_formerRun s
  case formerPause => exact zoneNews_formerPause s
  case bridge => show zoneNews (bridgeTest s).1 = _; unfold bridgeTest; split <;> rfl
  case search b => exact Prod.ext (recordsOf_search s (by decide) b) (recordsOf_search s (by decide) b)
  case deadline => exact Prod.ext (recordsOf_deadlineTest s (by decide)) (recordsOf_deadlineTest s (by decide))
  case approach =>
    show zoneNews (approachTest s).1 = _
    unfold approachTest; split
    · split <;> rfl
    · rfl
  all_goals cases hg

theorem zoneNews_settle {w : Work} (h : ∀ g ∈ w.2, followsSettled g = true) : zoneNews (settle w) = zoneNews w.1 :=
  settle_keeps_of (A := fun g => followsSettled g = true) (P := fun s => zoneNews s = zoneNews w.1)
    (fun s hs => (zoneNews_flagJoints s).trans hs)
    (fun _ s hg hs => ⟨(zoneNews_handle hg s).trans hs, fun _ hg' => followsSettled_raises hg (raises_of_mem hg')⟩)
    w rfl h

end Sys2Proof.Machine
end

section
/-! SUPPORT. A regulation period at one zone: what its steps make of a zone in each state, and of its band status
(R107, R112, R113, R116 to R118). -/

namespace Sys2Proof.Machine

open Sys2Proof.Safety

/-! ### The zone's own steps -/

section
variable {q : Zone} {r : Recipe} {e : Option Recipe}

theorem not_atWork_tripped (h : q.state = .tripped) : ¬atWork q.state := by
  rw [h]
  simp [atWork]

theorem bandOf_hi_iff (h : q.state ≠ .off) : bandOf (some r) q = .hi ↔ q.target + r.band < q.measured := by
  unfold bandOf
  dsimp only
  rw [if_neg h]
  split
  · next hi => exact iff_of_true rfl hi
  · next hi => exact iff_of_false (by split <;> decide) hi

theorem bandOf_in_iff (h : q.state ≠ .off) :
    bandOf (some r) q = .inBand ↔ q.measured ≤ q.target + r.band ∧ q.target ≤ q.measured + r.band := by
  unfold bandOf
  dsimp only
  rw [if_neg h]
  split
  · next hi => exact iff_of_false (by decide) (by omega)
  · split
    · exact iff_of_false (by decide) (by omega)
    · exact iff_of_true rfl (by omega)

theorem stillHot_iff (h : q.state ≠ .off) :
    stillHot (some r) q = true ↔ (q.target + r.band < q.measured ∧ q.blank = 0) ∧ q.duty = 0 := by
  simp only [stillHot, Bool.and_eq_true, decide_eq_true_eq, bandOf_hi_iff h]

theorem inBand_iff : inBand e q = true ↔ ∃ r, e = some r ∧ (q.state = .soft ∨ q.state = .regulating) ∧ q.blank = 0 ∧
    q.measured ≤ q.target + r.band ∧ q.target ≤ q.measured + r.band := by
  have hon : q.state = .soft ∨ q.state = .regulating → q.state ≠ .off := by
    rintro (h | h) <;> rw [h] <;> decide
  simp only [inBand, Bool.and_eq_true, Bool.or_eq_true, decide_eq_true_eq]
  cases e with
  | none => exact iff_of_false (fun h => by cases h.1.1) (fun ⟨_, h, _⟩ => by cases h)
  | some r =>
    constructor
    · rintro ⟨⟨hb, h0⟩, hs⟩
      exact ⟨r, rfl, hs, h0, (bandOf_in_iff (hon hs)).mp hb⟩
    · rintro ⟨r', hr, hs, h0, hb⟩
      obtain rfl := Option.some.inj hr
      exact ⟨⟨(bandOf_in_iff (hon hs)).mpr hb, h0⟩, hs⟩

/-- Steps 1 to 4 of a regulation period (R112). -/
def steppedZone (e : Option Recipe) (q : Zone) : Zone := purged e (regulated e q)

/-- The duty step 2 gives (R113). -/
def periodDuty (e : Option Recipe) (q : Zone) : Nat := if e.isSome then nextDuty (dutyCap q) q else 0

theorem steppedZone_resting (h : ¬atWork q.state) : steppedZone e q = { q with blank := q.blank - 1 } := by
  obtain ⟨st⟩ := q
  cases st
  case off | tripped | probeFault => rfl
  all_goals exact absurd (by simp [atWork]) h

theorem steppedZone_purge (h : q.state = .purge) : steppedZone e q =
    if q.purgeTime ≤ q.purge + 1 then
      { q with blank := q.blank - 1, state := .regulating, duty := 0, hi := 0, purge := 0 }
    else { q with blank := q.blank - 1, purge := q.purge + 1 } := by
  cases q
  cases h
  rfl

/-- A zone after the blank count and a duty step that gives `d` (R112, R113). -/
def dutyGiven (d : Nat) (q : Zone) : Zone := { q with blank := q.blank - 1, duty := d }

/-- Step 4 in REGULATING (R117). -/
theorem purged_regulating (h : q.state = .regulating) : purged e q =
    if stillHot e q = true then
      if q.purgeDelay ≤ q.hi + 1 then
        { q with state := .purge, hi := 0, duty := 0, windowDuty := 0, valve := false, purge := 0 }
      else { q with hi := q.hi + 1 }
    else { q with hi := 0 } := by
  cases q
  cases h
  rfl

theorem steppedZone_regulating (h : q.state = .regulating) :
    steppedZone e q = purged e (dutyGiven (periodDuty e q) q) := by
  cases q
  cases h
  rfl

/-- The soft count; a zone that ends it regulates from here on (R107, R112). -/
theorem steppedZone_soft (h : q.state = .soft) : steppedZone e q =
    if q.softTime ≤ q.soft + 1 then
      purged e { dutyGiven (periodDuty e q) q with state := .regulating, soft := 0, hi := 0 }
    else { dutyGiven (periodDuty e q) q with soft := q.soft + 1 } := by
  cases q
  cases h
  exact apply_ite (purged e) _ _ _

/-- What a period's steps leave of a zone. -/
theorem steppedZone_frame (e : Option Recipe) (q : Zone) : ∃ st duty window soft hi purge valve,
    steppedZone e q = { q with
      blank := q.blank - 1, state := st, duty := duty, windowDuty := window, soft := soft, hi := hi, purge := purge
      valve := valve } := by
  have hpurged : ∀ x : Zone, ∃ st duty window hi purge valve, purged e x = { x with
      state := st, duty := duty, windowDuty := window, hi := hi, purge := purge, valve := valve } := by
    intro x
    unfold purged
    split
    · split
      · split <;> exact ⟨_, _, _, _, _, _, rfl⟩
      · exact ⟨_, _, _, _, _, _, rfl⟩
    · split <;> exact ⟨_, _, _, _, _, _, rfl⟩
    all_goals exact ⟨_, _, _, _, _, _, rfl⟩
  have hregulated : ∃ st duty soft hi, regulated e q = { q with
      blank := q.blank - 1, state := st, duty := duty, soft := soft, hi := hi } := by
    unfold regulated
    dsimp only
    split
    · split <;> exact ⟨_, _, _, _, rfl⟩
    all_goals exact ⟨_, _, _, _, rfl⟩
  obtain ⟨st, duty, soft, hi, hr⟩ := hregulated
  obtain ⟨st', duty', window, hi', purge, valve, hp⟩ := hpurged (regulated e q)
  rw [hr] at hp
  exact ⟨st', duty', window, soft, hi', purge, valve, (congrArg (purged e) hr).trans hp⟩

theorem atWork_purged (e : Option Recipe) (q : Zone) : atWork (purged e q).state ↔ atWork q.state := by
  unfold purged
  split
  · next h =>
    split
    · split <;> simp [atWork, h]
    · simp [atWork, h]
  · next h => split <;> simp [atWork, h]
  all_goals rfl

/-- PURGE is entered and left in step 4 only; a zone leaves or enters no state but SOFT, REGULATING and PURGE (R112). -/
theorem regulated_state (e : Option Recipe) (q : Zone) :
    ((regulated e q).state = .purge ↔ q.state = .purge) ∧ (atWork (regulated e q).state ↔ atWork q.state) := by
  unfold regulated
  dsimp only
  split
  · next h => split <;> simp [atWork, h]
  all_goals next h => simp [atWork, h]

theorem atWork_steppedZone (e : Option Recipe) (q : Zone) : atWork (steppedZone e q).state ↔ atWork q.state :=
  (atWork_purged _ _).trans (regulated_state e q).2

end
end Sys2Proof.Machine
end

section
/-! SUPPORT. A regulation period of the part: the zone's steps, the release of a RETRY hold, the end of a probe test,
and what every period leaves, whatever it meets (R112, R117, R120, R139, R143, R145). -/

namespace Sys2Proof.Machine

open Sys2Proof.Safety

/-! ### The zone, the monitor and the router after each part -/

/-- The zone as its period begins again (R112). -/
def periodBegun (z : Fin 4) (s : State) : Zone := { s.zones.get z with regTimer := 1000 }

/-- The zone after its steps 1 to 4. -/
def periodZone (z : Fin 4) (s : State) : Zone := steppedZone (tunnelEntry s) (periodBegun z s)

/-- The detail of ZONE_PURGE (R24). -/
def purgeDetail (z : Fin 4) (q : Zone) : List Byte := byte1 z.val ++ bytes2 q.measured ++ bytes2 q.target

/-- The router after the zone's steps: told of an entry to PURGE, and as it was otherwise (R117). -/
def purgeTold (z : Fin 4) (s : State) : Three RouterPort :=
  if (s.zones.get z).state ≠ .purge ∧ (periodZone z s).state = .purge then
    s.router.map (notePort .zonePurge (purgeDetail z (s.zones.get z)))
  else s.router

/-- The monitor of the zone after its blank count (R139). -/
def blankCounted (z : Fin 4) (m : Monitor) : Monitor := monitorAt z (fun k => { k with blank := k.blank - 1 }) m

/-- The part after the zone's five steps and the monitor's blank count. -/
def afterSteps (z : Fin 4) (s : State) : State :=
  placed z (settledCount (tunnelEntry s) (periodZone z s)) (blankCounted z s.monitor) (purgeTold z s) s

/-- What the steps leave of a zone beside the blank count. -/
structure StepsKeep (q q' : Zone) : Prop where
  target : q'.target = q.target
  measured : q'.measured = q.measured
  blank : q'.blank = q.blank - 1
  held : q'.held = q.held
  settle : q'.settle = q.settle

theorem periodZone_keeps (z : Fin 4) (s : State) : StepsKeep (s.zones.get z) (periodZone z s) := by
  obtain ⟨_, _, _, _, _, _, _, h⟩ := steppedZone_frame (tunnelEntry s) (periodBegun z s)
  rw [periodZone, h]
  exact ⟨rfl, rfl, rfl, rfl, rfl⟩

theorem atWork_periodZone (z : Fin 4) (s : State) : atWork (periodZone z s).state ↔ atWork (s.zones.get z).state :=
  atWork_steppedZone _ _

theorem periodZone_resting {z : Fin 4} {s : State} (h : ¬atWork (s.zones.get z).state) :
    (periodZone z s).state = (s.zones.get z).state := by
  have hrest := steppedZone_resting (e := tunnelEntry s) (q := periodBegun z s) h
  rw [periodZone, hrest]
  rfl

/-- The zone's steps and the blank count, in place. -/
theorem monitorPeriod_regulateZone (z : Fin 4) (s : State) :
    monitorPeriod z (regulateZone z (s.onZone z fun q => { q with regTimer := 1000 })) = afterSteps z s := by
  have hstart : s.onZone z (fun q => { q with regTimer := 1000 }) =
      placed z (periodBegun z s) s.monitor s.router s := rfl
  have hpurge : (regulated (tunnelEntry s) (periodBegun z s)).state = .purge ↔ (s.zones.get z).state = .purge :=
    (regulated_state _ _).1
  have hkeeps := periodZone_keeps z s
  have hdetail : purgeDetail z (periodZone z s) = purgeDetail z (s.zones.get z) := by
    rw [purgeDetail, hkeeps.target, hkeeps.measured, purgeDetail]
  have hsteps : regulateZone z (placed z (periodBegun z s) s.monitor s.router s) =
      if (regulated (tunnelEntry s) (periodBegun z s)).state ≠ .purge ∧ (periodZone z s).state = .purge then
        raise .zonePurge (purgeDetail z (periodZone z s))
          (placed z (settledCount (tunnelEntry s) (periodZone z s)) s.monitor s.router s)
      else placed z (settledCount (tunnelEntry s) (periodZone z s)) s.monitor s.router s := by
    unfold regulateZone
    dsimp only
    rw [placed_zone, placed_onZone]
    rfl
  rw [hstart, hsteps, hdetail]
  unfold afterSteps purgeTold
  simp only [ne_eq, hpurge]
  split <;> rfl

/-! ### The release of a RETRY hold (R143) -/

/-- The condition of the release. -/
structure Cooled (z : Fin 4) (s : State) : Prop where
  hold : (s.monitor.zones.get z).hold = .retry
  tripped : (s.zones.get z).state = .tripped
  cool : (s.zones.get z).measured ≤ (s.monitor.zones.get z).tLimit - tunnelBand s

/-- A zone at work has no hold to release. -/
theorem Cooled.not_atWork {z : Fin 4} {s : State} (h : Cooled z s) : ¬atWork (s.zones.get z).state :=
  not_atWork_tripped h.tripped

theorem blankCounted_zone (z : Fin 4) (m : Monitor) :
    (blankCounted z m).zones.get z = { m.zones.get z with blank := (m.zones.get z).blank - 1 } := monitorAt_same _ _ _

theorem retryRelease_cooled {z : Fin 4} {s : State} (h : Cooled z s) : retryRelease z (afterSteps z s) =
    placed z (releasedZone (settledCount (tunnelEntry s) (periodZone z s)))
      (monitorAt z holdEnded (blankCounted z s.monitor)) (purgeTold z s) s := by
  have hstate : (periodZone z s).state = .tripped := (periodZone_resting h.not_atWork).trans h.tripped
  unfold retryRelease
  dsimp only
  rw [if_pos, releaseTrip, if_pos]
  · unfold afterSteps
    rw [placed_onZone, placed_onZoneMonitor]
  · unfold afterSteps
    rw [placed_zone]
    exact hstate
  · unfold afterSteps
    rw [placed_monitor, placed_zone, blankCounted_zone]
    exact ⟨h.hold, hstate, (periodZone_keeps z s).measured ▸ h.cool⟩

theorem retryRelease_other {z : Fin 4} {s : State} (h : ¬Cooled z s) :
    retryRelease z (afterSteps z s) = afterSteps z s := by
  refine if_neg fun hc => h ?_
  unfold afterSteps at hc
  rw [placed_monitor, placed_zone, blankCounted_zone] at hc
  obtain ⟨hhold, hst, hcool⟩ := hc
  have hst : (periodZone z s).state = .tripped := hst
  have hrest : ¬atWork (s.zones.get z).state := (atWork_periodZone z s).not.mp (not_atWork_tripped hst)
  exact ⟨hhold, (periodZone_resting hrest).symm.trans hst, (periodZone_keeps z s).measured ▸ hcool⟩

/-! ### The probe test (R145) -/

/-- A zone at work whose probe is found open (R119). -/
def faultedZone (q : Zone) : Zone := if enabledRunning q.state = true then stoppedZone .probeFault q else q

section
variable (z : Fin 4) (q : Zone) (m : Monitor) (r : Three RouterPort) (s : State)

theorem testPeriod_untested (h : m.test ≠ some z) : testPeriod z (placed z q m r s) = placed z q m r s := if_neg h

theorem testPeriod_first (h : m.test = some z) (h0 : m.testPeriods = 0) :
    testPeriod z (placed z q m r s) = placed z q { m with testPeriods := 1 } r s :=
  (if_pos h).trans (if_pos h0)

theorem testPeriod_closed (h : m.test = some z) (h0 : m.testPeriods ≠ 0) (hr : ∀ x, m.testLatest = some x → x < 2550) :
    testPeriod z (placed z q m r s) = placed z { q with held := false } (testEnded m) r s := by
  have hjudge : testPeriod z (placed z q m r s) = judgeTest z (placed z q m r s) := (if_pos h).trans (if_neg h0)
  rw [hjudge]
  unfold judgeTest
  rw [placed_monitor]
  split
  · exact releaseReading_placed z q (testEnded m) r s
  · next x hx =>
    rw [openCode, decide_eq_false (Nat.not_le.mpr (hr x hx))]
    exact releaseReading_placed z q (testEnded m) r s

theorem testPeriod_open (h : m.test = some z) (h0 : m.testPeriods ≠ 0) {x : Nat} (hx : m.testLatest = some x)
    (hr : 2550 ≤ x) : testPeriod z (placed z q m r s) =
      placed z (faultedZone q) (monitorAt z (fun k => { k with probeFlagged := true }) (testEnded m))
        (r.map (notePort .probeOpen (byte1 z.val))) s := by
  have hjudge : testPeriod z (placed z q m r s) = judgeTest z (placed z q m r s) := (if_pos h).trans (if_neg h0)
  have hend : endTest (placed z q m r s) = placed z q (testEnded m) r s := rfl
  rw [hjudge]
  unfold judgeTest
  rw [placed_monitor, hx]
  dsimp only
  rw [openCode, decide_eq_true hr, if_pos rfl, hend, placed_onZoneMonitor, probeFaultZone, placed_zone, placed_onZone,
    faultedZone]
  split <;> rfl

end

/-! ### What every period leaves -/

/-- A zone, the monitor and the router as a regulation period of the zone leaves them, whatever it meets: the counts,
the other zones' monitors, and what is told of PURGE and of the settled condition. -/
structure PeriodLeaves (z : Fin 4) (s : State) (q : Zone) (m : Monitor) (r : Three RouterPort) : Prop where
  target : q.target = (s.zones.get z).target
  blank : q.blank = (s.zones.get z).blank - 1
  monitorBlank : (m.zones.get z).blank = (s.monitor.zones.get z).blank - 1
  monitors : ∀ y, y ≠ z → m.zones.get y = s.monitor.zones.get y
  settledNews : r.map (recordOf .zonesSettled) = recordsOf .zonesSettled s
  purgeNews : r.map (recordOf .zonePurge) = (purgeTold z s).map (recordOf .zonePurge)
  counted : q.state = (periodZone z s).state ∧ q.settle = (settledCount (tunnelEntry s) (periodZone z s)).settle ∨
    q.settle = 0 ∧ q.state ≠ .purge ∧ (atWork (s.zones.get z).state → ¬(q.state = .soft ∨ q.state = .regulating))

section
variable {z : Fin 4} {s : State} {q : Zone} {m : Monitor} {r : Three RouterPort}

theorem records_map_raise {j k : EventKind} (h : j ≠ k) (d : List Byte) (r : Three RouterPort) :
    (r.map (notePort j d)).map (recordOf k) = r.map (recordOf k) :=
  Three.ext_get fun p => by simp [recordOf_notePort_ne h]

theorem periodLeaves_afterSteps (z : Fin 4) (s : State) :
    PeriodLeaves z s (settledCount (tunnelEntry s) (periodZone z s)) (blankCounted z s.monitor) (purgeTold z s) where
  target := (periodZone_keeps z s).target
  blank := (periodZone_keeps z s).blank
  monitorBlank := by rw [blankCounted_zone]
  monitors y hy := monitorAt_other hy _ _
  settledNews := by
    unfold purgeTold
    split
    · exact records_map_raise (by decide) _ _
    · rfl
  purgeNews := rfl
  counted := .inl ⟨rfl, rfl⟩

/-- A release is of a zone that was TRIPPED before. -/
theorem PeriodLeaves.released (h : PeriodLeaves z s q m r) (ht : (s.zones.get z).state = .tripped) :
    PeriodLeaves z s (releasedZone q) (monitorAt z holdEnded m) r where
  target := h.target
  blank := h.blank
  monitorBlank := by rw [monitorAt_same]; exact h.monitorBlank
  monitors y hy := (monitorAt_other hy _ _).trans (h.monitors y hy)
  settledNews := h.settledNews
  purgeNews := h.purgeNews
  counted := .inr ⟨rfl, nofun, fun hw => absurd hw (not_atWork_tripped ht)⟩

theorem PeriodLeaves.testPeriods (h : PeriodLeaves z s q m r) (n : Nat) :
    PeriodLeaves z s q { m with testPeriods := n } r := ⟨h.1, h.2, h.3, h.4, h.5, h.6, h.7⟩

theorem PeriodLeaves.closed (h : PeriodLeaves z s q m r) :
    PeriodLeaves z s { q with held := false } (testEnded m) r := ⟨h.1, h.2, h.3, h.4, h.5, h.6, h.7⟩

theorem PeriodLeaves.opened (h : PeriodLeaves z s q m r) :
    PeriodLeaves z s (faultedZone q) (monitorAt z (fun k => { k with probeFlagged := true }) (testEnded m))
      (r.map (notePort .probeOpen (byte1 z.val))) := by
  have hmonitor : (monitorAt z (fun k => { k with probeFlagged := true }) (testEnded m)).zones.get z =
      { m.zones.get z with probeFlagged := true } := monitorAt_same _ _ _
  have hothers : ∀ y, y ≠ z → (monitorAt z (fun k => { k with probeFlagged := true }) (testEnded m)).zones.get y =
      m.zones.get y := fun y hy => monitorAt_other hy _ _
  refine ⟨?_, ?_, by rw [hmonitor]; exact h.monitorBlank, fun y hy => (hothers y hy).trans (h.monitors y hy),
    (records_map_raise (by decide) _ _).trans h.settledNews, (records_map_raise (by decide) _ _).trans h.purgeNews, ?_⟩
  all_goals
    unfold faultedZone
    split
  · exact h.target
  · exact h.target
  · exact h.blank
  · exact h.blank
  · exact .inr ⟨rfl, nofun, fun _ => by simp [stoppedZone]⟩
  · exact h.counted

theorem PeriodLeaves.tested (h : PeriodLeaves z s q m r) :
    ∃ q' m' r', testPeriod z (placed z q m r s) = placed z q' m' r' s ∧ PeriodLeaves z s q' m' r' := by
  by_cases ht : m.test = some z
  · by_cases h0 : m.testPeriods = 0
    · exact ⟨_, _, _, testPeriod_first z q m r s ht h0, h.testPeriods 1⟩
    · by_cases hr : ∃ x, m.testLatest = some x ∧ 2550 ≤ x
      · obtain ⟨x, hx, hopen⟩ := hr
        exact ⟨_, _, _, testPeriod_open z q m r s ht h0 hx hopen, h.opened⟩
      · refine ⟨_, _, _, testPeriod_closed z q m r s ht h0 fun x hx => ?_, h.closed⟩
        exact Nat.not_le.mp fun hopen => hr ⟨x, hx, hopen⟩
  · exact ⟨_, _, _, testPeriod_untested z q m r s ht, h⟩

end

/-- The period of zone `z`, its timer begun again (R112). -/
def periodTaken (z : Fin 4) (s : State) : State :=
  regulationPeriod z (s.onZone z fun q => { q with regTimer := 1000 })

theorem periodTaken_eq (z : Fin 4) (s : State) : periodTaken z s = testPeriod z (retryRelease z (afterSteps z s)) := by
  rw [periodTaken, regulationPeriod, monitorPeriod_regulateZone]

theorem periodTaken_leaves (z : Fin 4) (s : State) :
    ∃ q m r, periodTaken z s = placed z q m r s ∧ PeriodLeaves z s q m r := by
  rw [periodTaken_eq]
  by_cases hc : Cooled z s
  · rw [retryRelease_cooled hc]
    exact ((periodLeaves_afterSteps z s).released hc.tripped).tested
  · rw [retryRelease_other hc]
    exact (periodLeaves_afterSteps z s).tested

end Sys2Proof.Machine
end

section
/-! SUPPORT. REGULATION_PERIOD with the look at the settled condition that follows: what is seen of the period after
it, and the whole of it for a line and a former that no settling moves (R112, R120, R121). -/

namespace Sys2Proof.Machine

open Sys2Proof.Safety

/-- The part after the period and all that follows from it. -/
def periodSettled (z : Fin 4) (s : State) : State := settle (periodTaken z s, [.settled false])

theorem exec_regulationPeriod (z : Fin 4) (s : State) : exec (.regulationPeriod z) s = .next (periodSettled z s) := rfl

/-! ### What is seen of a period, whatever follows from it -/

/-- In `t` the zone, the monitor and what is told of PURGE and of the probe are as a period left them. -/
structure PeriodShows (z : Fin 4) (s : State) (q : Zone) (m : Monitor) (r : Three RouterPort) (t : State) : Prop where
  work : zoneWork (t.zones.get z) = zoneWork q
  others : ∀ y, y ≠ z → zoneWork (t.zones.get y) = zoneWork (s.zones.get y)
  monitor : monitorBody (t.monitor.zones.get z) = monitorBody (m.zones.get z)
  test : t.monitor.test = m.test
  testPeriods : t.monitor.testPeriods = m.testPeriods
  purgeNews : recordsOf .zonePurge t = r.map (recordOf .zonePurge)
  probeNews : recordsOf .probeOpen t = r.map (recordOf .probeOpen)

section
variable {z : Fin 4} {s : State} {q : Zone} {m : Monitor} {r : Three RouterPort} {t : State}

theorem PeriodShows.state (h : PeriodShows z s q m r t) : (t.zones.get z).state = q.state :=
  of_zoneBody Zone.state (fun _ => rfl) h.work

theorem PeriodShows.hold (h : PeriodShows z s q m r t) : (t.monitor.zones.get z).hold = (m.zones.get z).hold :=
  of_monitorBody ZoneMonitor.hold (fun _ => rfl) h.monitor

theorem periodSettled_shows (h : periodTaken z s = placed z q m r s) : PeriodShows z s q m r (periodSettled z s) := by
  have hnews : zoneNews (periodSettled z s) = zoneNews (placed z q m r s) :=
    (zoneNews_settle (w := (periodTaken z s, [.settled false])) fun g hg => by
      rw [List.mem_singleton.mp hg]; rfl).trans (congrArg zoneNews h)
  have hbody : ∀ y, zoneBody ((periodSettled z s).zones.get y) = zoneBody ((placed z q m r s).zones.get y) := by
    intro y
    rw [periodSettled, settle_zoneBody, h]
  refine ⟨(hbody z).trans (congrArg zoneBody (placed_zone z q m r s)),
    fun y hy => (hbody y).trans (congrArg zoneBody (placed_other z q m r s hy)), ?_, ?_, ?_,
    congrArg Prod.fst hnews, congrArg Prod.snd hnews⟩
  · rw [periodSettled, settle_monitorBody, h]; rfl
  · rw [periodSettled, settle_test, h]; rfl
  · rw [periodSettled, settle_testPeriods, h]; rfl

theorem shows_untested (ht : s.monitor.test ≠ some z) (hc : ¬Cooled z s) :
    PeriodShows z s (settledCount (tunnelEntry s) (periodZone z s)) (blankCounted z s.monitor) (purgeTold z s)
      (periodSettled z s) := by
  refine periodSettled_shows ?_
  rw [periodTaken_eq, retryRelease_other hc]
  exact testPeriod_untested z _ _ _ s ht

theorem shows_released (ht : s.monitor.test ≠ some z) (hc : Cooled z s) :
    PeriodShows z s (releasedZone (settledCount (tunnelEntry s) (periodZone z s)))
      (monitorAt z holdEnded (blankCounted z s.monitor)) (purgeTold z s) (periodSettled z s) := by
  refine periodSettled_shows ?_
  rw [periodTaken_eq, retryRelease_cooled hc]
  exact testPeriod_untested z _ _ _ s ht

theorem retryRelease_placed (z : Fin 4) (s : State) :
    ∃ q m, retryRelease z (afterSteps z s) = placed z q m (purgeTold z s) s ∧ m.test = s.monitor.test ∧
      m.testPeriods = s.monitor.testPeriods := by
  by_cases hc : Cooled z s
  · exact ⟨_, _, retryRelease_cooled hc, rfl, rfl⟩
  · exact ⟨_, _, retryRelease_other hc, rfl, rfl⟩

/-- The first period of a test only counts it. -/
theorem shows_first (ht : s.monitor.test = some z) (h0 : s.monitor.testPeriods = 0) :
    ∃ q m, PeriodShows z s q m (purgeTold z s) (periodSettled z s) ∧ m.test = some z ∧ m.testPeriods = 1 := by
  obtain ⟨q, m, hretry, htest, hperiods⟩ := retryRelease_placed z s
  have htaken : periodTaken z s = placed z q { m with testPeriods := 1 } (purgeTold z s) s := by
    rw [periodTaken_eq, hretry]
    exact testPeriod_first z q m _ s (htest.trans ht) (hperiods.trans h0)
  exact ⟨_, _, periodSettled_shows htaken, htest.trans ht, rfl⟩

theorem shows_closed (ht : s.monitor.test = some z) (h0 : s.monitor.testPeriods ≠ 0)
    (hw : atWork (s.zones.get z).state) {x : Nat} (hx : s.monitor.testLatest = some x) (hr : x < 2550) :
    PeriodShows z s { settledCount (tunnelEntry s) (periodZone z s) with held := false }
      (testEnded (blankCounted z s.monitor)) (purgeTold z s) (periodSettled z s) := by
  refine periodSettled_shows ?_
  rw [periodTaken_eq, retryRelease_other (fun hc => hc.not_atWork hw)]
  refine testPeriod_closed z _ _ _ s ht h0 fun y hy => ?_
  obtain rfl : x = y := Option.some.inj (hx.symm.trans hy)
  exact hr

theorem shows_open (ht : s.monitor.test = some z) (h0 : s.monitor.testPeriods ≠ 0)
    (hw : atWork (s.zones.get z).state) {x : Nat} (hx : s.monitor.testLatest = some x) (hr : 2550 ≤ x) :
    PeriodShows z s (stoppedZone .probeFault (settledCount (tunnelEntry s) (periodZone z s)))
      (monitorAt z (fun k => { k with probeFlagged := true }) (testEnded (blankCounted z s.monitor)))
      ((purgeTold z s).map (notePort .probeOpen (byte1 z.val))) (periodSettled z s) := by
  have hfault : faultedZone (settledCount (tunnelEntry s) (periodZone z s)) = stoppedZone .probeFault _ :=
    if_pos ((enabledRunning_iff _).mpr ((atWork_periodZone z s).mpr hw))
  refine periodSettled_shows ?_
  rw [periodTaken_eq, retryRelease_other (fun hc => hc.not_atWork hw), ← hfault]
  exact testPeriod_open z _ _ _ s ht h0 hx hr

/-! ### What is told of PURGE and of the probe -/

theorem purgeTold_probeOpen (z : Fin 4) (s : State) :
    (purgeTold z s).map (recordOf .probeOpen) = recordsOf .probeOpen s := by
  unfold purgeTold
  split
  · exact records_map_raise (by decide) _ _
  · rfl

/-- A zone found in PURGE that was not there before has just been told to enter it (R117). -/
theorem noted_zonePurge (hq : (s.zones.get z).state ≠ .purge) (ht : ((periodSettled z s).zones.get z).state = .purge) :
    Noted .zonePurge (purgeDetail z (s.zones.get z)) s (periodSettled z s) := by
  obtain ⟨q, m, r, htaken, hleaves⟩ := periodTaken_leaves z s
  have hshows := periodSettled_shows htaken
  have hpurge : q.state = .purge := hshows.state.symm.trans ht
  have hstate : (periodZone z s).state = .purge := by
    rcases hleaves.counted with ⟨h, -⟩ | ⟨-, h, -⟩
    · exact h.symm.trans hpurge
    · exact absurd hpurge h
  have htold : purgeTold z s = s.router.map (notePort .zonePurge (purgeDetail z (s.zones.get z))) := if_pos ⟨hq, hstate⟩
  refine noted_of_raise (hshows.purgeNews.trans (hleaves.purgeNews.trans ?_))
  rw [htold]
  rfl

theorem unnoted_zonePurge (hm : s.monitor.test ≠ some z)
    (h : (s.zones.get z).state = .purge ∨ ((periodSettled z s).zones.get z).state ≠ .purge) :
    Unnoted .zonePurge s (periodSettled z s) := by
  by_cases hc : Cooled z s
  · have hstate : (periodZone z s).state = .tripped :=
      (periodZone_resting hc.not_atWork).trans hc.tripped
    have htold : purgeTold z s = s.router := if_neg fun hn => by rw [hstate] at hn; cases hn.2
    exact unnoted_of_recordsOf ((shows_released hm hc).purgeNews.trans (by rw [htold]; rfl))
  · have hshows := shows_untested hm hc
    have htold : purgeTold z s = s.router := if_neg fun hn =>
      h.elim hn.1 fun hne => hne (hshows.state.trans hn.2)
    exact unnoted_of_recordsOf (hshows.purgeNews.trans (by rw [htold]; rfl))

theorem unnoted_probeOpen (hm : s.monitor.test ≠ some z) : Unnoted .probeOpen s (periodSettled z s) := by
  by_cases hc : Cooled z s
  · exact unnoted_of_recordsOf ((shows_released hm hc).probeNews.trans (purgeTold_probeOpen z s))
  · exact unnoted_of_recordsOf ((shows_untested hm hc).probeNews.trans (purgeTold_probeOpen z s))

end

/-! ### A look at the settled condition that moves nothing (R120, R121) -/

/-- The detail of ZONES_SETTLED (R24). -/
def settledDetail (s : State) : List Byte :=
  byte1 (orNone255 s.dose.tunnelRecipe) ++ byte1 (zoneSet fun z => (tunnelEntry s).any fun r => usedZone r z)

/-- The settled condition reported as it comes to, and told when it turns true. -/
def settledLook (s : State) : State :=
  { s with
    settledReported := settledNow s
    router := if settledNow s = true ∧ s.settledReported = false then
        s.router.map (notePort .zonesSettled (settledDetail s))
      else s.router }

theorem settledLook_same {s : State} (h : settledNow s = s.settledReported) : settledLook s = s := by
  unfold settledLook
  rw [h, if_neg fun hn => Bool.false_ne_true (hn.2.symm.trans hn.1)]

theorem handle_settled (s : State) :
    handle (.settled false) s = (settledLook s, if settledNow s = s.settledReported then [] else [.warm, .bridge]) := by
  show reportSettled false s = _
  unfold reportSettled
  dsimp only
  by_cases h : settledNow s = s.settledReported
  · rw [if_pos ⟨h, rfl⟩, if_pos h, settledLook_same h]
    rfl
  · rw [if_neg fun hn => h hn.1, if_neg h, settledLook]
    simp only [Bool.and_eq_true, Bool.not_eq_true']
    by_cases hc : settledNow s = true ∧ s.settledReported = false
    · rw [if_pos hc, if_pos hc]
      rfl
    · rw [if_neg hc, if_neg hc]
      rfl

theorem settle_look {s : State} (hl : s.sup.line ≠ .warming) (hb : s.former.state ≠ .bridge) :
    settle (s, [.settled false]) = settledLook (flagJoints s) := by
  have hframe := flagJoints_frame s
  have hj : JointFlags (settledLook (flagJoints s)) := jointFlags_flagJoints s
  have hwarm : handle .warm (settledLook (flagJoints s)) = quiet (settledLook (flagJoints s)) := by
    refine if_neg fun h => hl ?_
    rw [hframe] at h
    exact h.1
  have hbridge : handle .bridge (settledLook (flagJoints s)) = quiet (settledLook (flagJoints s)) := by
    refine if_neg fun h => hb ?_
    rw [hframe] at h
    exact h.1
  have hflags := flagJoints_self hj
  have hdone := Settles.done (settledLook (flagJoints s))
  by_cases hv : settledNow (flagJoints s) = (flagJoints s).settledReported
  · refine Settles.settle (k := 1) (Settles.take (handle_settled _) ?_) (by decide)
    rw [if_pos hv, hflags]
    exact hdone
  · refine Settles.settle (k := 3) (Settles.take (handle_settled _) ?_) (by decide)
    rw [if_neg hv, hflags]
    exact Settles.skip hwarm hflags (Settles.skip hbridge hflags hdone)

theorem settledCondition_eq (s : State) : settledCondition s = settledNow s := by
  unfold settledCondition settledNow
  rw [entryOf_eq]
  cases tunnelEntry s with
  | none => rfl
  | some r =>
    rw [Bool.eq_iff_iff, decide_eq_true_eq, List.all_eq_true]
    simp only [mem_zonesInOrder, true_imp_iff, usedZone, zoneSettled, Bool.or_eq_true, Bool.not_eq_true',
      decide_eq_false_iff_not, decide_eq_true_eq, not_not]
    exact forall_congr' fun z => or_iff_not_imp_left.symm

/-- The whole of a period for a line that is not WARMING and a former not in BRIDGE. -/
theorem periodSettled_still {z : Fin 4} {s : State} (hl : s.sup.line ≠ .warming) (hb : s.former.state ≠ .bridge) :
    ∃ q m r, PeriodLeaves z s q m r ∧ (periodSettled z s).zones = s.zones.set z q ∧ (periodSettled z s).monitor = m ∧
      (periodSettled z s).settledReported = settledCondition (periodSettled z s) ∧
      (periodSettled z s).router = if (periodSettled z s).settledReported = true ∧ s.settledReported = false then
          r.map (notePort .zonesSettled (settledDetail s))
        else r := by
  obtain ⟨q, m, r, htaken, hleaves⟩ := periodTaken_leaves z s
  have hsettled : periodSettled z s = settledLook { placed z q m r s with
      tracker := (flagJoints (placed z q m r s)).tracker } := by
    rw [periodSettled, htaken, settle_look (s := placed z q m r s) hl hb, ← flagJoints_frame]
  refine ⟨q, m, r, hleaves, ?_⟩
  rw [settledCondition_eq, hsettled]
  exact ⟨rfl, rfl, rfl, rfl⟩

/-! ### The counts (R120) -/

theorem tunnelEntry_some {s : State} {i : Fin 4} (h : s.dose.tunnelRecipe = some i) :
    tunnelEntry s = some (s.dose.recipes.get i) := congrArg (Option.map _) h

/-- The zone counts as in band after its steps (R116, R120). -/
theorem inBand_periodZone (z : Fin 4) (s : State) :
    inBand (tunnelEntry s) (periodZone z s) = true ↔ ∃ i, s.dose.tunnelRecipe = some i ∧
      ((periodZone z s).state = .soft ∨ (periodZone z s).state = .regulating) ∧ (s.zones.get z).blank ≤ 1 ∧
      (s.zones.get z).measured ≤ (s.zones.get z).target + (s.dose.recipes.get i).band ∧
      (s.zones.get z).target ≤ (s.zones.get z).measured + (s.dose.recipes.get i).band := by
  have hkeeps := periodZone_keeps z s
  rw [inBand_iff, hkeeps.target, hkeeps.measured, hkeeps.blank, Nat.sub_eq_zero_iff_le]
  constructor
  · rintro ⟨r, hr, h⟩
    obtain ⟨i, hi, rfl⟩ := Option.map_eq_some_iff.mp hr
    exact ⟨i, hi, h⟩
  · rintro ⟨i, hi, h⟩
    exact ⟨_, tunnelEntry_some hi, h⟩

section
variable {z : Fin 4} {s : State} {q : Zone} {m : Monitor} {r : Three RouterPort}

theorem settledCount_settle (z : Fin 4) (s : State) : (settledCount (tunnelEntry s) (periodZone z s)).settle =
    if inBand (tunnelEntry s) (periodZone z s) = true then min 255 ((s.zones.get z).settle + 1) else 0 := by
  rw [← (periodZone_keeps z s).settle]
  rfl

/-- In band and at work all the while, the settle count rises. -/
theorem PeriodLeaves.settle_rises (h : PeriodLeaves z s q m r) {i : Fin 4} (hi : s.dose.tunnelRecipe = some i)
    (hw : atWork (s.zones.get z).state) (hq : q.state = .soft ∨ q.state = .regulating) (hb : (s.zones.get z).blank ≤ 1)
    (hin : (s.zones.get z).measured ≤ (s.zones.get z).target + (s.dose.recipes.get i).band ∧
      (s.zones.get z).target ≤ (s.zones.get z).measured + (s.dose.recipes.get i).band) :
    q.settle = min 255 ((s.zones.get z).settle + 1) := by
  rcases h.counted with ⟨hstate, hsettle⟩ | ⟨-, -, hout⟩
  · rw [hsettle, settledCount_settle, if_pos ((inBand_periodZone z s).mpr ⟨i, hi, hstate ▸ hq, hb, hin⟩)]
  · exact absurd hq (hout hw)

/-- Otherwise it is 0. -/
theorem PeriodLeaves.settle_zero (h : PeriodLeaves z s q m r)
    (hout : ¬∃ i, s.dose.tunnelRecipe = some i ∧ atWork (s.zones.get z).state ∧
      (q.state = .soft ∨ q.state = .regulating) ∧ (s.zones.get z).blank ≤ 1 ∧
      (s.zones.get z).measured ≤ (s.zones.get z).target + (s.dose.recipes.get i).band ∧
      (s.zones.get z).target ≤ (s.zones.get z).measured + (s.dose.recipes.get i).band) : q.settle = 0 := by
  rcases h.counted with ⟨hstate, hsettle⟩ | ⟨h0, -⟩
  · rw [hsettle, settledCount_settle, if_neg fun hin => hout ?_]
    obtain ⟨i, hi, hs, hb, hband⟩ := (inBand_periodZone z s).mp hin
    have hw : atWork (periodZone z s).state := hs.imp_right .inl
    exact ⟨i, hi, (atWork_periodZone z s).mp hw, hstate ▸ hs, hb, hband⟩
  · exact h0

/-! ### The zone's own work in each state (R107, R112, R113, R117, R118) -/

/-- Without a test and without a hold to release, the period leaves the zone as its steps do. -/
theorem work_untested (hm : s.monitor.test ≠ some z)
    (hr : (s.zones.get z).state ≠ .tripped ∨ (s.monitor.zones.get z).hold ≠ .retry)
    (h : zoneWork (periodZone z s) = zoneWork q) : zoneWork ((periodSettled z s).zones.get z) = zoneWork q :=
  (shows_untested hm fun hc => hr.elim (absurd hc.tripped) (absurd hc.hold)).work.trans h

theorem stillHot_period {i : Fin 4} (hi : s.dose.tunnelRecipe = some i) {b : Nat} (hs : q.state = .regulating)
    (hb : q.blank = b - 1) : stillHot (tunnelEntry s) q = true ↔
      (q.target + (s.dose.recipes.get i).band < q.measured ∧ b ≤ 1) ∧ q.duty = 0 := by
  rw [tunnelEntry_some hi, stillHot_iff (by rw [hs]; decide), hb, Nat.sub_eq_zero_iff_le]

theorem periodDuty_some {i : Fin 4} (hi : s.dose.tunnelRecipe = some i) (q : Zone) :
    periodDuty (tunnelEntry s) q = nextDuty (dutyCap q) q := by
  rw [tunnelEntry_some hi]
  rfl

/-- REGULATING without a tunnel recipe (R113). -/
theorem work_regulating_none (hi : s.dose.tunnelRecipe = none) (hs : (s.zones.get z).state = .regulating) :
    zoneWork (periodZone z s) = zoneWork { s.zones.get z with duty := 0, hi := 0, regTimer := 1000 } := by
  have hnone : tunnelEntry s = none := congrArg (Option.map _) hi
  have hbegun : (periodBegun z s).state = .regulating := hs
  have hstate : (dutyGiven 0 (periodBegun z s)).state = .regulating := hs
  have hcool : ¬stillHot none (dutyGiven 0 (periodBegun z s)) = true := by simp [stillHot, bandOf]
  rw [periodZone, hnone, steppedZone_regulating hbegun, show periodDuty none _ = 0 from rfl, purged_regulating hstate,
    if_neg hcool]
  rfl

/-- REGULATING with a tunnel recipe: the duty stepped, then the HI count, or PURGE entered. -/
theorem work_regulating {i : Fin 4} (hi : s.dose.tunnelRecipe = some i) (hs : (s.zones.get z).state = .regulating) :
    let q := s.zones.get z
    let d := nextDuty q.dutyMax q
    let hot : Prop := q.target + (s.dose.recipes.get i).band < q.measured ∧ q.blank ≤ 1
    (¬(hot ∧ d = 0) → zoneWork (periodZone z s) = zoneWork { q with duty := d, hi := 0, regTimer := 1000 }) ∧
    (hot ∧ d = 0 → q.hi + 1 < q.purgeDelay →
      zoneWork (periodZone z s) = zoneWork { q with duty := 0, hi := q.hi + 1, regTimer := 1000 }) ∧
    (hot ∧ d = 0 → q.purgeDelay ≤ q.hi + 1 → zoneWork (periodZone z s) = zoneWork { q with
      state := .purge, hi := 0, duty := 0, windowDuty := 0, valve := false, purge := 0, regTimer := 1000 }) := by
  intro q d hot
  have hduty : periodDuty (tunnelEntry s) (periodBegun z s) = d := by
    have hcap : dutyCap (periodBegun z s) = q.dutyMax :=
      (dutyCap_eq _).trans (if_neg fun h => by cases hs.symm.trans h)
    rw [periodDuty_some hi, hcap]
    rfl
  have hbegun : (periodBegun z s).state = .regulating := hs
  have hstate : (dutyGiven d (periodBegun z s)).state = .regulating := hs
  have hhot := stillHot_period hi hstate rfl
  rw [periodZone, steppedZone_regulating hbegun, hduty, purged_regulating hstate]
  have hcount : (dutyGiven d (periodBegun z s)).purgeDelay ≤ (dutyGiven d (periodBegun z s)).hi + 1 ↔
      q.purgeDelay ≤ q.hi + 1 := Iff.rfl
  refine ⟨fun h => ?_, fun h hd => ?_, fun h hd => ?_⟩
  · rw [if_neg (mt hhot.mp h)]
    rfl
  · rw [if_pos (hhot.mpr h), if_neg (hcount.not.mpr (Nat.not_le.mpr hd)), h.2]
    rfl
  · rw [if_pos (hhot.mpr h), if_pos (hcount.mpr hd)]
    rfl

/-- SOFT with a tunnel recipe: the duty stepped and the soft count advanced, or REGULATING entered. -/
theorem work_soft {i : Fin 4} (hi : s.dose.tunnelRecipe = some i) (hs : (s.zones.get z).state = .soft) :
    let q := s.zones.get z
    let d := nextDuty (min q.softDuty q.dutyMax) q
    let hot : Prop := q.target + (s.dose.recipes.get i).band < q.measured ∧ q.blank ≤ 1
    (q.soft + 1 < q.softTime →
      zoneWork (periodZone z s) = zoneWork { q with duty := d, soft := q.soft + 1, regTimer := 1000 }) ∧
    (q.softTime ≤ q.soft + 1 → ¬(hot ∧ d = 0) → zoneWork (periodZone z s) = zoneWork { q with
      state := .regulating, duty := d, soft := 0, hi := 0, regTimer := 1000 }) := by
  intro q d hot
  have hduty : periodDuty (tunnelEntry s) (periodBegun z s) = d := by
    have hcap : dutyCap (periodBegun z s) = min q.softDuty q.dutyMax := (dutyCap_eq _).trans (if_pos hs)
    rw [periodDuty_some hi, hcap]
    rfl
  have hstep := steppedZone_soft (e := tunnelEntry s) (q := periodBegun z s) hs
  rw [hduty] at hstep
  refine ⟨fun ht => ?_, fun ht h => ?_⟩
  · exact (congrArg zoneWork (hstep.trans (if_neg (Nat.not_le.mpr ht)))).trans rfl
  · have hhot := stillHot_period (q := { dutyGiven d (periodBegun z s) with state := .regulating, soft := 0, hi := 0 })
      hi rfl rfl
    exact (congrArg zoneWork ((hstep.trans (if_pos ht)).trans
      ((purged_regulating rfl).trans (if_neg (mt hhot.mp h))))).trans rfl

end

/-! ### The statement's clause on the counts -/

/-- The clause of a line that is not WARMING and a former not in BRIDGE: the counts and the settled condition. -/
theorem periodSettled_counts (z : Fin 4) (s : State) (hl : s.sup.line ≠ .warming) (hb : s.former.state ≠ .bridge) :
    let q := s.zones.get z
    let m := s.monitor
    let t := periodSettled z s
    let q' := t.zones.get z
    let inBand (r : Recipe) : Prop := q.measured ≤ q.target + r.band ∧ q.target ≤ q.measured + r.band
    q'.target = q.target ∧ q'.blank = q.blank - 1 ∧
    (t.monitor.zones.get z).blank = (m.zones.get z).blank - 1 ∧
    (∀ y, y ≠ z → t.zones.get y = s.zones.get y ∧ t.monitor.zones.get y = m.zones.get y) ∧
    (∀ i, s.dose.tunnelRecipe = some i → atWork q.state → q'.state = .soft ∨ q'.state = .regulating → q.blank ≤ 1 →
      inBand (s.dose.recipes.get i) → q'.settle = min 255 (q.settle + 1)) ∧
    (¬(∃ i, s.dose.tunnelRecipe = some i ∧ atWork q.state ∧ (q'.state = .soft ∨ q'.state = .regulating) ∧
        q.blank ≤ 1 ∧ inBand (s.dose.recipes.get i)) → q'.settle = 0) ∧
    t.settledReported = settledCondition t ∧
    (∀ i, s.dose.tunnelRecipe = some i → s.settledReported = false → t.settledReported = true →
      Noted .zonesSettled
        (le1 i.val ++ le1 (zoneSet fun y => decide ((s.dose.recipes.get i).inc.get y ≠ 0))) s t) ∧
    (s.settledReported = true ∨ t.settledReported = false → Unnoted .zonesSettled s t) := by
  obtain ⟨x, k, r, hleaves, hzones, hmonitor, hreported, hrouter⟩ := periodSettled_still (z := z) hl hb
  intro q m t q' inBand
  have hq' : q' = x := by
    show (periodSettled z s).zones.get z = x
    rw [hzones, Four.get_set_same]
  have hk : t.monitor = k := hmonitor
  rw [hq', hk]
  refine ⟨hleaves.target, hleaves.blank, hleaves.monitorBlank, fun y hy => ⟨?_, hleaves.monitors y hy⟩,
    fun i hi hw hs hbl hin => hleaves.settle_rises hi hw hs hbl hin, hleaves.settle_zero, hreported,
    fun i hi hf ht => ?told, fun h => ?untold⟩
  · show (periodSettled z s).zones.get y = _
    rw [hzones, Four.get_set_ne _ hy]
  case told =>
    rw [if_pos ⟨ht, hf⟩] at hrouter
    have hdetail : settledDetail s =
        le1 i.val ++ le1 (zoneSet fun y => decide ((s.dose.recipes.get i).inc.get y ≠ 0)) := by
      rw [settledDetail, tunnelEntry_some hi, hi]
      rfl
    refine noted_iff.mpr ?_
    rw [← hleaves.settledNews, ← hdetail]
    refine (congrArg (Three.map (recordOf .zonesSettled)) hrouter).trans (Three.ext_get fun p => ?_)
    simp only [Three.get_map, recordOf_notePort_same]
  case untold =>
    have hquiet : ¬((periodSettled z s).settledReported = true ∧ s.settledReported = false) := fun ⟨ht, hf⟩ =>
      h.elim (fun h => Bool.false_ne_true (hf.symm.trans h)) (fun h => Bool.false_ne_true (h.symm.trans ht))
    rw [if_neg hquiet] at hrouter
    exact unnoted_of_recordsOf ((congrArg (Three.map (recordOf .zonesSettled)) hrouter).trans hleaves.settledNews)

end Sys2Proof.Machine

namespace Sys2Proof.Proofs

open Sys2Proof.Machine Sys2Proof.Safety

/-- Settles O40: the period's own effect zone state by zone state, of which a settling that follows changes nothing that
is compared, and what is told of it. -/
theorem regulationPeriod : Obligations.RegulationPeriod := by
  intro z s q m quietHere done
  refine ⟨periodSettled z s, exec_regulationPeriod z s, ?others, periodSettled_counts z s, noted_zonePurge,
    unnoted_zonePurge, unnoted_probeOpen, fun hs hm => ?resting, fun hs hm ht => ?purgeRuns, fun hs hm ht => ?purgeEnds,
    fun hs hm hi => ?noRecipe, fun i hi hm => ?recipe, fun hs hh hm hc => ?released, fun x ht h0 hx hw => ?judged,
    fun ht h0 => ?first⟩
  case others =>
    obtain ⟨_, _, _, htaken, -⟩ := periodTaken_leaves z s
    exact (periodSettled_shows htaken).others
  case resting =>
    have hrest : ¬atWork q.state := by
      rcases hs with h | ⟨h, -⟩ | h <;> rw [h] <;> simp [atWork]
    have hold : q.state ≠ .tripped ∨ (m.zones.get z).hold ≠ .retry := by
      rcases hs with h | ⟨-, h⟩ | h
      · exact .inl (by rw [h]; decide)
      · exact .inr h
      · exact .inl (by rw [h]; decide)
    exact work_untested hm hold ((congrArg zoneWork (steppedZone_resting (q := periodBegun z s) hrest)).trans rfl)
  case purgeRuns =>
    have hstep := (steppedZone_purge (e := tunnelEntry s) (q := periodBegun z s) hs).trans (if_neg (Nat.not_le.mpr ht))
    exact work_untested hm (.inl (by rw [hs]; decide)) ((congrArg zoneWork hstep).trans rfl)
  case purgeEnds =>
    have hstep := (steppedZone_purge (e := tunnelEntry s) (q := periodBegun z s) hs).trans (if_pos ht)
    exact work_untested hm (.inl (by rw [hs]; decide)) ((congrArg zoneWork hstep).trans rfl)
  case noRecipe =>
    exact work_untested hm (.inl (by rw [hs]; decide)) (work_regulating_none hi hs)
  case recipe =>
    intro d dSoft hot
    have hreg : q.state = .regulating → q.state ≠ .tripped := fun h => by rw [h]; decide
    have hsoft : q.state = .soft → q.state ≠ .tripped := fun h => by rw [h]; decide
    refine ⟨fun hs h => ?cool, fun hs h ht => ?heats, fun hs h ht => ?entersPurge, fun hs ht => ?softRuns,
      fun hs ht h => ?softEnds⟩
    case cool =>
      obtain ⟨hcool, -, -⟩ := work_regulating hi hs
      exact work_untested hm (.inl (hreg hs)) (hcool h)
    case heats =>
      obtain ⟨-, hheats, -⟩ := work_regulating hi hs
      exact work_untested hm (.inl (hreg hs)) (hheats h ht)
    case entersPurge =>
      obtain ⟨-, -, henters⟩ := work_regulating hi hs
      exact work_untested hm (.inl (hreg hs)) (henters h ht)
    case softRuns =>
      obtain ⟨hruns, -⟩ := work_soft hi hs
      exact work_untested hm (.inl (hsoft hs)) (hruns ht)
    case softEnds =>
      obtain ⟨-, hends⟩ := work_soft hi hs
      exact work_untested hm (.inl (hsoft hs)) (hends ht h)
  case released =>
    have hcooled : Cooled z s := ⟨hh, hs, hc⟩
    have hshows := shows_released hm hcooled
    have hzone : periodZone z s = _ := steppedZone_resting (q := periodBegun z s) hcooled.not_atWork
    rw [hzone] at hshows
    exact ⟨hshows.work, hshows.hold.trans (by rw [monitorAt_same]; rfl)⟩
  case judged =>
    by_cases hr : x < 2550
    · have hshows := shows_closed ht h0 hw hx hr
      have hheld : ((periodSettled z s).zones.get z).held = false := of_zoneBody Zone.held (fun _ => rfl) hshows.work
      refine ⟨hshows.test, fun _ => ⟨hheld, ?_, ?_⟩, fun hn => absurd hr (Nat.not_lt.mpr hn)⟩
      · rw [hshows.state]
        exact (atWork_periodZone z s).mpr hw
      · exact unnoted_of_recordsOf (hshows.probeNews.trans (purgeTold_probeOpen z s))
    · have hshows := shows_open ht h0 hw hx (Nat.not_lt.mp hr)
      have hheld : ((periodSettled z s).zones.get z).held = (periodZone z s).held :=
        (of_zoneBody Zone.held (fun _ => rfl) hshows.work).trans rfl
      refine ⟨hshows.test, fun hn => absurd hn hr, fun _ => ⟨hshows.state,
        of_zoneBody Zone.duty (fun _ => rfl) hshows.work, of_zoneBody Zone.valve (fun _ => rfl) hshows.work,
        hheld.trans (periodZone_keeps z s).held, ?_, ?_⟩⟩
      · refine (of_monitorBody ZoneMonitor.probeFlagged (fun _ => rfl) hshows.monitor).trans ?_
        rw [monitorAt_same]
      · refine noted_iff.mpr (hshows.probeNews.trans ?_)
        rw [← purgeTold_probeOpen z s]
        exact Three.ext_get fun p => by simp only [Three.get_map, recordOf_notePort_same]; rfl
  case first =>
    obtain ⟨_, _, hshows, htest, hperiods⟩ := shows_first ht h0
    exact ⟨hshows.test.trans htest, hshows.testPeriods.trans hperiods,
      unnoted_of_recordsOf (hshows.probeNews.trans (purgeTold_probeOpen z s))⟩

end Sys2Proof.Proofs
end
